-- ==== Sys2Proof/Word.lean ====
section
/-! DEFINITION. The word types of the block and the groups of words a message carries. -/

namespace Sys2Proof

/-- One byte of a message (R169). -/
abbrev Byte := BitVec 8
/-- The time count T: 48 bits, wraps modulo 2^48 (spec/00_scope.md, "The time count and forward distance"). -/
abbrev TimeCount := BitVec 48
/-- A frame number: 32 bits, wraps (R2). -/
abbrev FrameNumber := BitVec 32
/-- A phase, a frame length, a program phase or a pulse width: 24 bits, 3 bytes on the link (R169). -/
abbrev Phase := BitVec 24
/-- The epoch: 16 bits, wraps (R9). -/
abbrev Epoch := BitVec 16
/-- A set of lines: line k is bit k. -/
abbrev LineSet := BitVec 16
/-- A set of ports: port n is bit n. -/
abbrev PortSet := BitVec 4
/-- A port number, 0 to 3. -/
abbrev PortId := Fin 4
/-- A line number that names a line, 0 to 15. -/
abbrev LineId := Fin 16

/-- A level of a pin or of a driven line. -/
inductive Level where
  | low
  | high
  deriving DecidableEq, Repr

/-- The opposite level (TOGGLE of R31). -/
def Level.opposite : Level → Level
  | .low => .high
  | .high => .low

/-- The twelve bytes of a plan record as a PLAN_PROPOSE carries them, codes unchecked (9.3, plan record). -/
structure PlanFields where
  frameLength : Phase
  refEnable : Byte
  slipWindow : BitVec 16
  slewLimit : Byte
  stepPolicy : Byte
  holdoverLimit : BitVec 16
  voteWindow : Byte
  portQuota : Byte
  deriving DecidableEq, Repr

end Sys2Proof
end

