-- ==== Sys2Proof/Config.lean ====
section
/-! DEFINITION. What the board fixes (the straps) and the capacities of the part (spec/00_scope.md, Capacities).
The spec leaves no value open, so there is no free value here. -/

namespace Sys2Proof

/-- The strap pins, sampled while RESET_N is low (R1, R93, R114); `true` is a high pin. -/
structure Straps where
  planSel1 : Bool
  planSel0 : Bool
  refEn : Bool
  deriving DecidableEq, Repr

namespace Config

/-- Schedule entries, part-wide (R22). -/
def scheduleCapacity : Nat := 128
/-- Journal records, part-wide (R76). -/
def journalCapacity : Nat := 256
/-- Ordinary entries of one notification queue (R155). -/
def noteCapacity : Nat := 15
/-- Pending count limit of one port (R143). -/
def pendingLimit : Nat := 8
/-- The horizon, in counts (spec/00_scope.md, Horizon). -/
def horizon : Nat := 2 ^ 40
/-- The longest body a request may announce (R141). -/
def maxRequestBody : Nat := 28
/-- The strap levels of `State.reset`: DESIGN CHOICE all low, log 6. -/
def resetStraps : Straps := ⟨false, false, false⟩

end Config
end Sys2Proof
end

