-- ==== Sys2Proof/Syntax.lean ====
section
/-! DEFINITION. The commands of the block: one constructor for each row of spec/opcode_table.json.
An operand `p` is the port, `id` the request id; the other operands of a request are the fields of its body as the
link carries them (9.3), so a code field is a byte that may hold any value (R169). -/

namespace Sys2Proof

/-- One command. Rows of spec/opcode_table.json in the table's order. -/
inductive Instr where
  /-- RESET_N_ASSERT: RESET_N low, with the straps sampled while it is low (R134, R1). -/
  | resetNAssert (straps : Straps)
  /-- RESET_N_RELEASE: RESET_N rises (R1). -/
  | resetNRelease
  /-- PRST_ASSERT: PRST_n first sampled low (R151). -/
  | prstAssert (p : PortId)
  /-- PRST_RELEASE: PRST_n first sampled high (R151). -/
  | prstRelease (p : PortId)
  /-- CCLK_COUNT: one period of CCLK (R2), with the levels REFIN and the line pins show in it (R94, R66). -/
  | cclkCount (refin : Level) (lines : LineSet)
  /-- FRAME_BOUNDARY_EVENT (R5). -/
  | frameBoundaryEvent
  /-- HOLDOVER_LIMIT_EXPIRY (R105). -/
  | holdoverLimitExpiry
  /-- VOTE_WINDOW_EXPIRY (R125). -/
  | voteWindowExpiry
  /-- REFIN_EDGE: a rising edge of REFIN (R95). -/
  | refinEdge
  /-- BACKWARD_STEP (R10). -/
  | backwardStep
  /-- FORWARD_STEP (R11). -/
  | forwardStep
  /-- ACTION_DUE (R33). -/
  | actionDue
  /-- PULSE_TRAILING_EDGE (R36). -/
  | pulseTrailingEdge
  /-- LINE_LEVEL_CHANGE: the pin of an INPUT line is sampled at a new level (R66). -/
  | lineLevelChange (line : LineId) (level : Level)
  /-- RESPONSE_CHOICE: CS_n falls (R136). -/
  | responseChoice (p : PortId)
  /-- TRANSACTION_END: CS_n rises after the MOSI bits sampled in the transaction, first bit first (R138, R135). -/
  | transactionEnd (p : PortId) (mosi : List Bool)
  /-- NONE (R142). -/
  | noneRequest (p : PortId) (id : Byte)
  /-- UNKNOWN_KIND: a request whose kind code is not in the table (R144, R171). -/
  | unknownKind (p : PortId) (kind id : Byte) (body : List Byte)
  /-- OPEN (R149). -/
  | openSession (p : PortId) (id : Byte) (enable : BitVec 16) (subscriptions : LineSet)
  /-- CLOSE (R150). -/
  | closeSession (p : PortId) (id : Byte)
  /-- STATUS_READ (R153). -/
  | statusRead (p : PortId) (id : Byte)
  /-- TIME_READ (R16). -/
  | timeRead (p : PortId) (id : Byte)
  /-- ACTION_POST (R24). -/
  | actionPost (p : PortId) (id line kind : Byte) (width : Phase) (due : TimeCount) (late sync notify : Byte) (tag : BitVec 16)
  /-- ACTION_CANCEL (R41); the argument is read by selector (9.3). -/
  | actionCancel (p : PortId) (id selector : Byte) (argument : BitVec 32)
  /-- ACTION_QUERY (R44). -/
  | actionQuery (p : PortId) (id : Byte) (number : BitVec 32)
  /-- LINE_CLAIM (R53). -/
  | lineClaim (p : PortId) (id line : Byte)
  /-- LINE_RELEASE (R55). -/
  | lineRelease (p : PortId) (id line : Byte)
  /-- LINE_CONFIG (R56). -/
  | lineConfig (p : PortId) (id line mode safe retain edge initial : Byte)
  /-- LINE_DRIVE (R59). -/
  | lineDrive (p : PortId) (id line level : Byte)
  /-- LINE_QUERY (R72). -/
  | lineQuery (p : PortId) (id line : Byte)
  /-- CYCLE_STAGE (R63). -/
  | cycleStage (p : PortId) (id line : Byte) (rise fall : Phase) (force : Byte)
  /-- SUBSCRIBE (R86). -/
  | subscribe (p : PortId) (id : Byte) (set : LineSet)
  /-- JOURNAL_READ (R88). -/
  | journalRead (p : PortId) (id maximum : Byte)
  /-- NOTE_READ (R163). -/
  | noteRead (p : PortId) (id : Byte)
  /-- NOTE_ACK (R164). -/
  | noteAck (p : PortId) (id : Byte) (number : BitVec 16)
  /-- PLAN_PROPOSE (R118). -/
  | planPropose (p : PortId) (id : Byte) (plan : PlanFields)
  /-- PLAN_VOTE (R121). -/
  | planVote (p : PortId) (id : Byte) (number : BitVec 16) (decision : Byte)
  /-- PLAN_WITHDRAW (R124). -/
  | planWithdraw (p : PortId) (id : Byte)
  /-- PLAN_READ (R132). -/
  | planRead (p : PortId) (id : Byte)
  deriving DecidableEq, Repr

end Sys2Proof
end

