-- ==== Sys2Proof/Decode.lean ====
section
/-! DEFINITION. The command a word of spec/opcode_table.json spells. The table gives no row any bits (every row's
"fields" is empty and none has "fixed"), so no word spells a command. The bytes of a request message are read in
Sys2Proof/Machine/Operands.lean, by the layouts of chapter 9. -/

namespace Sys2Proof

/-- The command that a word spells by the table's bits: none, since no row of the table has bits. -/
def decodeTableWord (_nbits _w : Nat) : Option Instr := none

end Sys2Proof
end

