-- ==== Sys2Proof/Machine/Records.lean ====
section
/-! DEFINITION. The records the blocks of the part hold, with the manual's names. Numeric codes stand in Operands.lean. -/

namespace Sys2Proof.Machine

/-! ### Time base (1.1) -/

/-- Correction run (R7). -/
inductive RunState where
  | closed
  | opened
  deriving DecidableEq, Repr

/-- The items of the time base (1.1). -/
structure TimeBase where
  t : TimeCount
  frame : FrameNumber
  phase : Phase
  len : Phase
  epoch : Epoch
  run : RunState
  performed : Nat
  deriving DecidableEq, Repr

/-! ### Sync unit (5.1) -/

/-- The sync states (5.4). -/
inductive SyncState where
  | free
  | acquire
  | locked
  | holdover
  | realign
  deriving DecidableEq, Repr

/-- A step ordered in the count of the deciding edge and carried out in the next (R9, R100): the error that fixes it,
and the sync state the HELD check of jumped entries reads (R38). -/
structure StepOrder where
  e : Int
  state : SyncState
  deriving DecidableEq, Repr

/-- The items of the sync unit (5.1). -/
structure SyncUnit where
  state : SyncState
  lastE : Int
  c : Int
  alignedRun : Nat
  missedRun : Nat
  holdoverCount : Nat
  strayCount : Nat
  measured : Bool
  refinLast : Option Level
  stepOrder : Option StepOrder
  deriving DecidableEq, Repr

/-! ### Action schedule (2.1) -/

inductive ActionKind where
  | set
  | clear
  | toggle
  | pulseHigh
  | pulseLow
  deriving DecidableEq, Repr

inductive LatePolicy where
  | runLate
  | skip
  deriving DecidableEq, Repr

inductive SyncClass where
  | any
  | held
  deriving DecidableEq, Repr

/-- The start field of an IN_PULSE entry. -/
inductive Start where
  | onTime
  | late
  deriving DecidableEq, Repr

/-- What an IN_PULSE entry has beside a PENDING one: its end time and start (2.1). -/
structure Pulse where
  endTime : TimeCount
  start : Start
  deriving DecidableEq, Repr

/-- A schedule entry. Its state is PENDING when `pulse` is none and IN_PULSE when it is some (R20); the width of a kind
without one is 0 (R25). -/
structure Entry where
  number : BitVec 32
  owner : Option PortId
  line : LineId
  kind : ActionKind
  width : Phase
  due : TimeCount
  late : LatePolicy
  sync : SyncClass
  notify : Bool
  tag : BitVec 16
  pulse : Option Pulse
  deriving DecidableEq, Repr

/-- The outcomes of a resolution (2.8). ORPHANED is given by a session end and reported to nobody (R46). -/
inductive Outcome where
  | done
  | late
  | skipped
  | cancelled
  | unsynced
  | orphaned
  deriving DecidableEq, Repr

/-- The action list and the action number counter (R18). -/
structure Schedule where
  entries : List Entry
  counter : BitVec 32
  deriving DecidableEq, Repr

/-! ### Line table (3.1) -/

inductive Mode where
  | off
  | input
  | outputEvent
  | outputCycle
  deriving DecidableEq, Repr

/-- What a pin is driven at: a level, or not driven (R51). Also the safe level's values. -/
inductive Drive where
  | low
  | high
  | highz
  deriving DecidableEq, Repr

inductive EdgeSelect where
  | rise
  | fall
  | both
  deriving DecidableEq, Repr

inductive Edge where
  | rise
  | fall
  deriving DecidableEq, Repr

inductive Force where
  | none
  | low
  | high
  deriving DecidableEq, Repr

/-- A cyclic program (R61). -/
structure Program where
  rise : Phase
  fall : Phase
  force : Force
  deriving DecidableEq, Repr

/-- A staged program and its stager: the port and id of the pending CYCLE_STAGE, or none (3.1). -/
structure Staged where
  program : Program
  stager : Option (PortId × Byte)
  deriving DecidableEq, Repr

/-- A line record (3.1). -/
structure Line where
  mode : Mode
  owner : Option PortId
  retain : Bool
  safe : Drive
  edge : EdgeSelect
  initial : Level
  driven : Option Level
  last : Option Level
  active : Option Program
  staged : Option Staged
  deriving DecidableEq, Repr

/-! ### Capture journal (4.1, 4.2) -/

/-- A capture record. `stamp` is the serial number of the count it was taken in (model's own, log 9). -/
structure Record where
  sequence : BitVec 32
  line : LineId
  edge : Edge
  t : TimeCount
  frame : FrameNumber
  phase : Phase
  quality : SyncState
  epoch : Epoch
  readers : PortSet
  stamp : Nat
  deriving DecidableEq, Repr

/-- The journal (4.1). -/
structure Journal where
  records : List Record
  counter : BitVec 32
  subs : Vector LineSet 4
  missed : Vector Nat 4
  deriving DecidableEq, Repr

/-- An item of a JOURNAL_READ answer (R88, R173). -/
inductive JournalItem where
  | gap (missed : Nat)
  | capture (r : Record)
  deriving DecidableEq, Repr

/-! ### Plan unit (6.1, 6.2) -/

inductive StepPolicy where
  | allowStep
  | noStep
  deriving DecidableEq, Repr

/-- The plan record (6.1). -/
structure Plan where
  frameLength : Phase
  refEnable : Bool
  slipWindow : BitVec 16
  slewLimit : Byte
  stepPolicy : StepPolicy
  holdoverLimit : BitVec 16
  voteWindow : Byte
  portQuota : Byte
  deriving DecidableEq, Repr

inductive ProposalState where
  | voting
  | agreed
  deriving DecidableEq, Repr

/-- A proposal (6.2). -/
structure Proposal where
  number : BitVec 16
  proposer : PortId
  plan : Plan
  required : PortSet
  accepted : PortSet
  remaining : Nat
  state : ProposalState
  request : Option (PortId × Byte)
  deriving DecidableEq, Repr

/-- Outcomes of a proposal that PLAN_OUTCOME reports (R133). -/
inductive PlanOutcome where
  | rejected
  | expired
  | withdrawn
  deriving DecidableEq, Repr

/-- The plan unit. -/
structure PlanUnit where
  record : Plan
  number : BitVec 16
  proposal : Option Proposal
  counter : BitVec 16
  deriving DecidableEq, Repr

/-! ### Notification queues (8.1, 8.2) -/

/-- The eight ordinary kinds (8.3). OVERFLOW is a record of its own. -/
inductive NoteKind where
  | actionResult
  | journalReady
  | syncChange
  | planPending
  | planOutcome
  | planApplied
  | programForced
  | inputStopped
  deriving DecidableEq, Repr

/-- The body of an ordinary notification (8.3). -/
inductive NoteBody where
  | actionResult (number : BitVec 32) (tag : BitVec 16) (line : LineId) (outcome : Outcome) (t : TimeCount) (epoch : Epoch)
  | journalReady (unread missed : Nat)
  | syncChange (state : SyncState) (epoch : Epoch) (e : Int)
  | planPending (number : BitVec 16) (proposer : PortId) (plan : Plan)
  | planOutcome (number : BitVec 16) (outcome : PlanOutcome)
  | planApplied (number : BitVec 16) (frame : FrameNumber)
  | programForced (line : LineId) (frame : FrameNumber)
  | inputStopped (line : LineId)
  deriving DecidableEq, Repr

/-- An ordinary entry. `repeats` is 0 for a kind that does not coalesce, where the field is absent (8.2). `stamp` is the
serial number of the count of the last post (model's own, log 9). -/
structure Note where
  number : BitVec 16
  body : NoteBody
  repeats : Nat
  stamp : Nat
  deriving DecidableEq, Repr

/-- The OVERFLOW entry (R161). -/
structure OverflowEntry where
  number : BitVec 16
  lost : Nat
  repeats : Nat
  deriving DecidableEq, Repr

/-- One port's notification queue (8.1). Bit k of the enable set stands for the ordinary kind with code k + 1 (R169). -/
structure NoteQueue where
  entries : List Note
  overflow : Option OverflowEntry
  counter : BitVec 16
  enable : BitVec 8
  deriving DecidableEq, Repr

/-- The head entry as a NOTE_READ answer shows it (R163). -/
inductive NoteHead where
  | empty
  | ordinary (n : Note)
  | overflow (o : OverflowEntry)
  deriving DecidableEq, Repr

/-! ### Answers (9.4) -/

/-- Result codes (9.7). -/
inductive Result where
  | ok
  | late
  | skipped
  | unsynced
  | badValue
  | unknownKind
  | noSession
  | alreadyOpen
  | notOwner
  | heldByOther
  | lineBusy
  | wrongMode
  | outOfHorizon
  | quota
  | scheduleFull
  | unknown
  | superseded
  | cancelled
  | notCurrent
  | planBusy
  | staleVote
  | notVoter
  | alreadyVoted
  | alreadyAgreed
  | rejected
  | expired
  | withdrawn
  deriving DecidableEq, Repr

inductive ClaimResult where
  | claimed
  | adopted
  | alreadyOwned
  deriving DecidableEq, Repr

/-- The TIME_READ snapshot (R17). -/
structure TimeSnapshot where
  t : TimeCount
  frame : FrameNumber
  phase : Phase
  len : Phase
  state : SyncState
  epoch : Epoch
  planNumber : BitVec 16
  lastE : Int
  strayCount : Nat
  deriving DecidableEq, Repr

/-- The STATUS_READ summary (R153). -/
structure StatusReport where
  sessionMap : PortSet
  session : BitVec 16
  state : SyncState
  epoch : Epoch
  planNumber : BitVec 16
  proposal : Option ProposalState
  scheduleOccupancy : Nat
  journalOccupancy : Nat
  entryCount : Nat
  missed : Nat
  deriving DecidableEq, Repr

/-- The LINE_QUERY record (R72, 9.4.1). -/
structure LineReport where
  number : LineId
  record : Line
  entries : Nat
  t : TimeCount
  epoch : Epoch
  deriving DecidableEq, Repr

/-- The NOTE_READ answer (R163). -/
structure NoteAnswer where
  head : NoteHead
  queued : Nat
  lost : Nat
  deriving DecidableEq, Repr

/-- The PLAN_READ answer (R132). -/
structure PlanReport where
  record : Plan
  number : BitVec 16
  proposal : Option Proposal
  deriving DecidableEq, Repr

/-- The body of a response, by the kind answered (9.4); `empty` is the body of length 0 of NO_SESSION, UNKNOWN_KIND and
EMPTY (R172). -/
inductive Body where
  | empty
  | opened (p : PortId) (session planNumber : BitVec 16) (state : SyncState)
  | closed (session : BitVec 16)
  | status (r : StatusReport)
  | time (r : TimeSnapshot)
  | post (number : BitVec 32) (t : TimeCount) (epoch : Epoch)
  | cancel (count : Nat)
  | query (entry : Option Entry) (t : TimeCount) (epoch : Epoch)
  | claim (line : Byte) (result : Option ClaimResult) (adopted : Nat)
  | line (line : Byte)
  | drive (line : Byte) (t : TimeCount) (epoch : Epoch)
  | lineRecord (r : Option LineReport)
  | stage (line : Byte) (frame : FrameNumber) (forced : Bool)
  | subscribed (set : LineSet)
  | journal (items : List JournalItem) (remaining : Nat)
  | note (r : NoteAnswer)
  | ack (number : BitVec 16) (left : Nat)
  | propose (number : BitVec 16) (rejecting : Option PortId) (frame : FrameNumber) (planNumber : BitVec 16)
  | vote (number : BitVec 16) (state : Option ProposalState)
  | withdraw (number : BitVec 16)
  | planRead (r : PlanReport)
  deriving DecidableEq, Repr

/-- A queued response (7.1): the echoed kind and id, the result and the body are fixed when the answer is made (R172).
`stamp` is the serial number of the count its request was taken in (model's own, log 9). -/
structure Response where
  kind : Byte
  id : Byte
  result : Result
  body : Body
  stamp : Nat
  deriving DecidableEq, Repr

/-- The block that owns a deferred request: the staged slot of a line, or the plan unit (7.1, R146). -/
inductive DeferredOwner where
  | line (k : LineId)
  | plan
  deriving DecidableEq, Repr

/-- A deferred request (7.1). -/
structure Deferred where
  kind : Byte
  id : Byte
  owner : DeferredOwner
  deriving DecidableEq, Repr

/-- The chosen response of the transaction under way (R136): whether it is EMPTY, the flags its completed header carries
(R139 clears what was carried), and all its bytes with the CRC-8. -/
structure Chosen where
  empty : Bool
  overrun : Bool
  badFrame : Bool
  bytes : List Byte
  deriving DecidableEq, Repr

/-- One port link (7.1) with its pins: `prstLow` is PRST_n low, `csLow` is CS_n low, `misoSent` the bits MISO_n carried
in the last handled transaction, first bit first (log 20). `lastEdge` is the serial number of the count in which the link last handled a select
edge or took a request (model's own, log 4). -/
structure Port where
  isOpen : Bool
  session : BitVec 16
  responses : List Response
  deferred : List Deferred
  overrun : Bool
  badFrame : Bool
  chosen : Option Chosen
  prstLow : Bool
  csLow : Bool
  lastEdge : Option Nat
  misoSent : List Bool
  deriving DecidableEq, Repr

/-! ### The count in progress -/

/-- The move of a count (R2, R12). A forward step carries the sync state its order was given in (R38). -/
inductive Move where
  | ordinary
  | insertion
  | deletion
  | backward
  | forward (held : SyncState)
  deriving DecidableEq, Repr

/-- The count in progress: what has begun in it and is not yet handled (log 1). `running` is false until the first count
after RESET_N rises. `ref` is the time placements are measured from in the count (R21, log 13). `raised` says that a frame
boundary event, or after a backward step a frame restart, was raised and is not yet handled. `changes` are the level
changes that match their edge select and are not yet handed over, in ascending line number (R66, R79). `readyPosted` holds
the ports for which a capture of the count has met a case of R84 (log 28). -/
structure Count where
  serial : Nat
  running : Bool
  move : Move
  ref : TimeCount
  raised : Bool
  syncPosted : Bool
  refinEdge : Bool
  changes : List (LineId × Edge)
  readyPosted : PortSet
  deriving DecidableEq, Repr

/-- The output pins: the lines (R51) and ATTN_n (R166; low is attention). -/
structure Outputs where
  linePins : Vector Drive 16
  attn : Vector Level 4
  deriving DecidableEq, Repr

end Sys2Proof.Machine
end

