-- ==== Sys2Proof/Machine/PowerOn.lean ====
section
/-! DEFINITION. The values after RESET_N of every block: the After RESET_N columns of the chapters. -/

namespace Sys2Proof.Machine

/-- The power-on frame length the PLAN_SEL straps select (R1). -/
def strapFrameLength (st : Straps) : Phase :=
  match st.planSel1, st.planSel0 with
  | false, false => 100000
  | false, true => 50000
  | true, false => 125000
  | true, true => 1000000

/-- The power-on plan record (R114, table of 6.1). -/
def powerOnPlan (st : Straps) : Plan where
  frameLength := strapFrameLength st
  refEnable := st.refEn
  slipWindow := 1000
  slewLimit := 8
  stepPolicy := .allowStep
  holdoverLimit := 0
  voteWindow := 64
  portQuota := 32

/-- The time base after RESET_N (R1, table of 1.1). -/
def powerOnTime (st : Straps) : TimeBase where
  t := 0
  frame := 0
  phase := 0
  len := strapFrameLength st
  epoch := 0
  run := .closed
  performed := 0

/-- The sync unit after RESET_N (R93, table of 5.1). -/
def powerOnSync (st : Straps) : SyncUnit where
  state := if st.refEn then .acquire else .free
  lastE := 0
  c := 0
  alignedRun := 0
  missedRun := 0
  holdoverCount := 0
  strayCount := 0
  measured := false
  refinLast := none
  stepOrder := none

/-- A line record after RESET_N (R50, table of 3.1). -/
def powerOnLine : Line where
  mode := .off
  owner := none
  retain := false
  safe := .highz
  edge := .rise
  initial := .low
  driven := none
  last := none
  active := none
  staged := none

/-- A port link after RESET_N (R134, table of 7.1); the pins PRST_n and CS_n are the outside's. -/
def powerOnPort (prstLow csLow : Bool) : Port where
  isOpen := false
  session := 0
  responses := []
  deferred := []
  overrun := false
  badFrame := false
  chosen := none
  prstLow := prstLow
  csLow := csLow
  lastEdge := none
  misoSent := []

/-- A notification queue after RESET_N (R155, table of 8.1). -/
def powerOnNotes : NoteQueue where
  entries := []
  overflow := none
  counter := 1
  enable := 0

/-- The journal after RESET_N (R73, table of 4.1). -/
def powerOnJournal : Journal where
  records := []
  counter := 1
  subs := #v[0, 0, 0, 0]
  missed := #v[0, 0, 0, 0]

/-- The plan unit after RESET_N (R114). -/
def powerOnPlanUnit (st : Straps) : PlanUnit where
  record := powerOnPlan st
  number := 0
  proposal := none
  counter := 1

/-- No count has begun since RESET_N (R1: while RESET_N is low no count passes). -/
def powerOnCount : Count where
  serial := 0
  running := false
  move := .ordinary
  ref := 0
  raised := false
  syncPosted := false
  refinEdge := false
  changes := []
  readyPosted := 0

/-- The output pins after RESET_N: every line undriven (R50), every ATTN_n high (R155). -/
def powerOnOutputs : Outputs where
  linePins := Vector.replicate 16 .highz
  attn := Vector.replicate 4 .high

end Sys2Proof.Machine
end

