-- ==== Sys2Proof/Machine/State.lean ====
section
/-! DEFINITION. The state of the block, the reasons a step can stop, and the state after reset. -/

namespace Sys2Proof.Machine

/-- The reasons a command faults. None: the spec gives the block no fault; what goes wrong is answered with a result code
or shown by BAD_FRAME and OVERRUN (log 23). -/
inductive Fault where
  deriving DecidableEq, Repr

/-- The reasons a command is refused. -/
inductive Refusal where
  /-- Raised only by an arm of `exec` whose command has no meaning yet; no arm does. Safe: the run stops. -/
  | notModelled (mnemonic : String)
  deriving DecidableEq, Repr

/-- Everything the spec gives the part (INVENTORY.md, State), and the queue of waiting commands. -/
structure State where
  pending : List Instr
  resetLow : Bool
  straps : Straps
  refinIn : Level
  lineIn : LineSet
  time : TimeBase
  sync : SyncUnit
  schedule : Schedule
  lines : Vector Line 16
  journal : Journal
  plan : PlanUnit
  ports : Vector Port 4
  notes : Vector NoteQueue 4
  count : Count
  outputs : Outputs
  deriving DecidableEq, Repr

/-- The part with every block at its reset values for the given straps, all PRST_n and CS_n high, and an empty queue. -/
def State.powerOn (resetLow : Bool) (st : Straps) : State where
  pending := []
  resetLow := resetLow
  straps := st
  refinIn := .low
  lineIn := 0
  time := powerOnTime st
  sync := powerOnSync st
  schedule := ⟨[], 1⟩
  lines := Vector.replicate 16 powerOnLine
  journal := powerOnJournal
  plan := powerOnPlanUnit st
  ports := Vector.replicate 4 (powerOnPort false false)
  notes := Vector.replicate 4 powerOnNotes
  count := powerOnCount
  outputs := powerOnOutputs

/-- The part right after reset: RESET_N has just risen and no count has passed (R1). The straps were low, PRST_n and CS_n
are high, REFIN and the line pins are LOW: DESIGN CHOICE, log 6 and log 7. -/
def State.reset : State := State.powerOn false Config.resetStraps

end Sys2Proof.Machine
end

