-- ==== Sys2Proof/Machine/Ops.lean ====
section
/-! DEFINITION. The named operations over State that every block uses: access to ports, lines and queues, comparison of
times, the counters that skip zero, responses and deferred answers, posting of notifications. -/

namespace Sys2Proof.Machine

/-! ### Access -/

/-- The four ports and the sixteen lines, in ascending order. -/
def allPorts : List PortId := [0, 1, 2, 3]
def allLines : List LineId := [0, 1, 2, 3, 4, 5, 6, 7, 8, 9, 10, 11, 12, 13, 14, 15]

def State.port (s : State) (p : PortId) : Port := s.ports[p]
def State.line (s : State) (k : LineId) : Line := s.lines[k]
def State.queue (s : State) (p : PortId) : NoteQueue := s.notes[p]
def State.subs (s : State) (p : PortId) : LineSet := s.journal.subs[p]
def State.missed (s : State) (p : PortId) : Nat := s.journal.missed[p]

def State.modPort (p : PortId) (f : Port → Port) (s : State) : State := { s with ports := s.ports.set p (f s.ports[p]) }
def State.modLine (k : LineId) (f : Line → Line) (s : State) : State := { s with lines := s.lines.set k (f s.lines[k]) }
def State.modQueue (p : PortId) (f : NoteQueue → NoteQueue) (s : State) : State :=
  { s with notes := s.notes.set p (f s.notes[p]) }
def State.modSync (f : SyncUnit → SyncUnit) (s : State) : State := { s with sync := f s.sync }
def State.modTime (f : TimeBase → TimeBase) (s : State) : State := { s with time := f s.time }
def State.modCount (f : Count → Count) (s : State) : State := { s with count := f s.count }
def State.setSubs (p : PortId) (x : LineSet) (s : State) : State :=
  { s with journal := { s.journal with subs := s.journal.subs.set p x } }
def State.setMissed (p : PortId) (n : Nat) (s : State) : State :=
  { s with journal := { s.journal with missed := s.journal.missed.set p n } }
def State.setRecords (rs : List Record) (s : State) : State := { s with journal := { s.journal with records := rs } }
def State.setEntries (es : List Entry) (s : State) : State := { s with schedule := { s.schedule with entries := es } }
def State.setProposal (x : Option Proposal) (s : State) : State := { s with plan := { s.plan with proposal := x } }

/-- Every element of a vector replaced by its image; written over the list so that the kernel evaluates it. -/
def mapVector {α β : Type} {n : Nat} (f : α → β) (v : Vector α n) : Vector β n := ⟨⟨v.toList.map f⟩, by simp⟩

/-- An operation made at every port, in ascending order. -/
def forPorts (f : PortId → State → State) (s : State) : State := allPorts.foldl (fun t p => f p t) s
/-- An operation made at every line, in ascending order. -/
def forLines (f : LineId → State → State) (s : State) : State := allLines.foldl (fun t k => f k t) s

/-- The line a line-number byte names: none above 15 (R24, R53, R55). -/
def lineOf (b : Byte) : Option LineId := if h : b.toNat < 16 then some ⟨b.toNat, h⟩ else none

/-- Port `p` has an open session. -/
def State.isOpen (s : State) (p : PortId) : Bool := (s.port p).isOpen

/-- A port set from a test on ports. -/
def portSet (f : PortId → Bool) : PortSet := BitVec.ofBoolListLE (allPorts.map f)

/-- The set without one port. -/
def withoutPort (x : PortSet) (p : PortId) : PortSet := x &&& ~~~((1#4) <<< p.val)
/-- The set with one port more. -/
def withPort (x : PortSet) (p : PortId) : PortSet := x ||| ((1#4) <<< p.val)

/-- The ports whose session state is OPEN (R153, session map). -/
def State.openPorts (s : State) : PortSet := portSet s.isOpen

/-! ### Times (1.5, R13 to R15) -/

/-- The forward distance from `a` to `b`: (b − a) mod 2^48. -/
def forward (a b : TimeCount) : Nat := (b - a).toNat

/-- `x` is ahead of `t`: the forward distance from `t` to `x` lies between 1 and 2^47 − 1 (R13). -/
def ahead (t x : TimeCount) : Bool := decide (0 < forward t x) && decide (forward t x < 2 ^ 47)

/-- `x` is within horizon of `t`: at most 2^40 counts ahead, or at most 2^40 behind (R15). -/
def withinHorizon (t x : TimeCount) : Bool :=
  decide (forward t x ≤ Config.horizon) || decide (2 ^ 48 - Config.horizon ≤ forward t x)

/-! ### Counters that skip zero (R19, R75, R116, R156) -/

/-- The value a counter takes after assigning `v`: the next value that is neither 0 nor in `used`. The fuel bounds the
values passed over: at most 0 and each of `used` once. -/
def nextNumber {w : Nat} (used : List (BitVec w)) : Nat → BitVec w → BitVec w
  | 0, v => v + 1
  | fuel + 1, v => if v + 1 = 0 ∨ v + 1 ∈ used then nextNumber used fuel (v + 1) else v + 1

/-- The counter after an assignment, with fuel enough for the numbers in use. -/
def advanceCounter {w : Nat} (used : List (BitVec w)) (v : BitVec w) : BitVec w := nextNumber used (used.length + 1) v

/-- A saturating increment: stays at `top` once it has reached it. -/
def satInc (top n : Nat) : Nat := if n < top then n + 1 else n

/-! ### Responses and deferred requests (7.3, 7.4) -/

/-- The pending count: responses queued plus deferred requests (R143). -/
def State.pendingCount (s : State) (p : PortId) : Nat := (s.port p).responses.length + (s.port p).deferred.length

/-- An answer appended to the port's response queue (R145), stamped with the count in progress. -/
def State.respond (p : PortId) (kind id : Byte) (result : Result) (body : Body) (s : State) : State :=
  s.modPort p fun q => { q with responses := q.responses ++ [⟨kind, id, result, body, s.count.serial⟩] }

/-- A request held deferred (R146). -/
def State.hold (p : PortId) (kind id : Byte) (owner : DeferredOwner) (s : State) : State :=
  s.modPort p fun q => { q with deferred := q.deferred ++ [⟨kind, id, owner⟩] }

/-- The answer to a deferred request: it leaves the list and its response goes to the tail of the queue, echoing the
kind and id as taken (R146). A request the link has dropped is answered nothing. -/
def State.answerDeferred (p : PortId) (owner : DeferredOwner) (result : Result) (body : Body) (s : State) : State :=
  match (s.port p).deferred.find? (fun d => decide (d.owner = owner)) with
  | none => s
  | some d =>
    s.modPort p fun q =>
      { q with
        deferred := q.deferred.eraseP (fun d => decide (d.owner = owner))
        responses := q.responses ++ [⟨d.kind, d.id, result, body, s.count.serial⟩] }

/-! ### Notification queues (8.2 to 8.4) -/

/-- The kind of a body (8.3). -/
def NoteBody.kind : NoteBody → NoteKind
  | .actionResult .. => .actionResult
  | .journalReady .. => .journalReady
  | .syncChange .. => .syncChange
  | .planPending .. => .planPending
  | .planOutcome .. => .planOutcome
  | .planApplied .. => .planApplied
  | .programForced .. => .programForced
  | .inputStopped .. => .inputStopped

/-- The bit of a kind in an enable set (9.7). -/
def NoteKind.bit : NoteKind → Nat
  | .actionResult => 0
  | .journalReady => 1
  | .syncChange => 2
  | .planPending => 3
  | .planOutcome => 4
  | .planApplied => 5
  | .programForced => 6
  | .inputStopped => 7

/-- The ordinary kinds that coalesce (8.3). -/
def NoteKind.coalescing : NoteKind → Bool
  | .journalReady => true
  | .syncChange => true
  | .actionResult => false
  | .planPending => false
  | .planOutcome => false
  | .planApplied => false
  | .programForced => false
  | .inputStopped => false

/-- The numbers the entries of a queue carry. -/
def NoteQueue.numbers (q : NoteQueue) : List (BitVec 16) :=
  q.entries.map (·.number) ++ (match q.overflow with | none => [] | some o => [o.number])

/-- The counter moved on after its value was assigned (R156). -/
def NoteQueue.bump (q : NoteQueue) : NoteQueue := { q with counter := advanceCounter q.numbers q.counter }

/-- An entry re-fired: new number and body, repeat count up to 255, same place (R159). -/
def NoteQueue.refire (stamp : Nat) (body : NoteBody) (q : NoteQueue) : NoteQueue :=
  NoteQueue.bump
    { q with entries := q.entries.map fun n =>
        if n.body.kind = body.kind then ⟨q.counter, body, satInc 255 n.repeats, stamp⟩ else n }

/-- A new ordinary entry after the others (R160). -/
def NoteQueue.create (stamp : Nat) (body : NoteBody) (q : NoteQueue) : NoteQueue :=
  NoteQueue.bump
    { q with entries := q.entries ++ [⟨q.counter, body, if body.kind.coalescing then 1 else 0, stamp⟩] }

/-- A post lost for want of room, recorded in the OVERFLOW entry (R161). -/
def NoteQueue.lose (q : NoteQueue) : NoteQueue :=
  NoteQueue.bump
    { q with overflow := some (match q.overflow with
        | none => ⟨q.counter, 1, 1⟩
        | some o => ⟨q.counter, satInc 65535 o.lost, satInc 255 o.repeats⟩) }

/-- A post that the session and the enable set let through (R158): re-fired, created or lost. -/
def NoteQueue.accept (stamp : Nat) (body : NoteBody) (q : NoteQueue) : NoteQueue :=
  if body.kind.coalescing && q.entries.any (fun n => decide (n.body.kind = body.kind)) then q.refire stamp body
  else if q.entries.length < Config.noteCapacity then q.create stamp body
  else q.lose

/-- A post to a port's queue (R158): discarded when the session is closed or the kind not enabled. -/
def State.post (p : PortId) (body : NoteBody) (s : State) : State :=
  if s.isOpen p && (s.queue p).enable.getLsbD body.kind.bit then s.modQueue p (NoteQueue.accept s.count.serial body) else s

/-- Entries queued, ordinary and OVERFLOW together (R163). -/
def NoteQueue.size (q : NoteQueue) : Nat := q.entries.length + (if q.overflow.isSome then 1 else 0)

/-! ### The gate of the request link (7.3) -/

/-- The link handles transactions of the port: neither RESET_N nor PRST_n is low (R134, R151). -/
def State.handles (s : State) (p : PortId) : Bool := !s.resetLow && !(s.port p).prstLow

/-- A request that passed framing is taken (R143, R144): discarded with OVERRUN at the pending limit; answered NO_SESSION
on a closed port when it needs a session; else handled by `op`. -/
def State.take (p : PortId) (kind id : Byte) (needsSession : Bool) (op : State → State) (s : State) : State :=
  if !s.handles p then s
  else if Config.pendingLimit ≤ s.pendingCount p then s.modPort p fun q => { q with overrun := true }
  else if needsSession && !s.isOpen p then s.respond p kind id .noSession .empty
  else op s

end Sys2Proof.Machine
end

