-- ==== Sys2Proof/WellFormed.lean ====
section
/-! DEFINITION. Which commands are well formed: what the operand types do not already say. -/

namespace Sys2Proof

/-- The request kinds with a code and a fixed body length (R171, table of 9.3). -/
def knownKinds : List Byte :=
  [0x00, 0x01, 0x02, 0x03, 0x10, 0x20, 0x21, 0x22, 0x30, 0x31, 0x32, 0x33, 0x34, 0x35, 0x40, 0x41, 0x50, 0x51,
   0x60, 0x61, 0x62, 0x63]

/-- A command is well formed: an UNKNOWN_KIND carries a kind that is not in the table and a body of at most 28 bytes
(R141, R171). Every other operand's range is its type's. -/
def Instr.wf : Instr → Bool
  | .unknownKind _ kind _ body => !knownKinds.contains kind && decide (body.length ≤ Config.maxRequestBody)
  | .resetNAssert _ | .resetNRelease | .prstAssert _ | .prstRelease _ | .cclkCount _ _ | .frameBoundaryEvent
  | .holdoverLimitExpiry | .voteWindowExpiry | .refinEdge | .backwardStep | .forwardStep | .actionDue
  | .pulseTrailingEdge | .lineLevelChange _ _ | .responseChoice _ | .transactionEnd _ _ | .noneRequest _ _
  | .openSession _ _ _ _ | .closeSession _ _ | .statusRead _ _ | .timeRead _ _ | .actionPost _ _ _ _ _ _ _ _ _ _
  | .actionCancel _ _ _ _ | .actionQuery _ _ _ | .lineClaim _ _ _ | .lineRelease _ _ _ | .lineConfig _ _ _ _ _ _ _ _
  | .lineDrive _ _ _ _ | .lineQuery _ _ _ | .cycleStage _ _ _ _ _ _ | .subscribe _ _ _ | .journalRead _ _ _
  | .noteRead _ _ | .noteAck _ _ _ | .planPropose _ _ _ | .planVote _ _ _ _ | .planWithdraw _ _ | .planRead _ _ => true

end Sys2Proof
end

