-- ==== Sys2Proof/Machine/Operands.lean ====
section
/-! DEFINITION. Reading and writing the operands of messages (chapter 9): byte order, numeric codes, the CRC-8, the request
layouts and the framing check. -/

namespace Sys2Proof.Machine

/-! ### Numbers, most significant byte first (R169) -/

def be2 (w : BitVec 16) : List Byte := [w.extractLsb' 8 8, w.extractLsb' 0 8]
def be3 (w : BitVec 24) : List Byte := [w.extractLsb' 16 8, w.extractLsb' 8 8, w.extractLsb' 0 8]
def be4 (w : BitVec 32) : List Byte :=
  [w.extractLsb' 24 8, w.extractLsb' 16 8, w.extractLsb' 8 8, w.extractLsb' 0 8]
def be6 (w : BitVec 48) : List Byte :=
  [w.extractLsb' 40 8, w.extractLsb' 32 8, w.extractLsb' 24 8, w.extractLsb' 16 8, w.extractLsb' 8 8, w.extractLsb' 0 8]

/-- A count in one or two bytes. -/
def nat1 (n : Nat) : List Byte := [BitVec.ofNat 8 n]
def nat2 (n : Nat) : List Byte := be2 (BitVec.ofNat 16 n)

/-- The error e: a 3-byte two's complement number (R169). -/
def error3 (e : Int) : List Byte := be3 (BitVec.ofInt 24 e)

/-- The marker of a port field that names no port, of an absent level and of an absent active program (R169, 9.4.1). -/
def noneMark : Byte := 0xFF

def portByte (p : PortId) : Byte := BitVec.ofNat 8 p.val
def portMark : Option PortId → Byte
  | none => noneMark
  | some p => portByte p
def lineByte (k : LineId) : Byte := BitVec.ofNat 8 k.val
/-- A port set in one byte, bits 4 to 7 clear (R169). -/
def portSetByte (x : PortSet) : Byte := x.zeroExtend 8
def flagByte (b : Bool) : Byte := if b then 1 else 0

/-! ### Codes the part sends (9.7) -/

def SyncState.code : SyncState → Byte
  | .free => 0 | .acquire => 1 | .locked => 2 | .holdover => 3 | .realign => 4
def Outcome.code : Outcome → Byte
  | .done => 1 | .late => 2 | .skipped => 3 | .cancelled => 4 | .unsynced => 5 | .orphaned => 6
def PlanOutcome.code : PlanOutcome → Byte
  | .rejected => 1 | .expired => 2 | .withdrawn => 3
def proposalCode : Option ProposalState → Byte
  | none => 0 | some .voting => 1 | some .agreed => 2
def Start.code : Start → Byte
  | .onTime => 1 | .late => 2
def ActionKind.code : ActionKind → Byte
  | .set => 1 | .clear => 2 | .toggle => 3 | .pulseHigh => 4 | .pulseLow => 5
def LatePolicy.code : LatePolicy → Byte
  | .runLate => 1 | .skip => 2
def SyncClass.code : SyncClass → Byte
  | .any => 0 | .held => 1
def Mode.code : Mode → Byte
  | .off => 0 | .input => 1 | .outputEvent => 2 | .outputCycle => 3
def Drive.code : Drive → Byte
  | .low => 0 | .high => 1 | .highz => 2
def EdgeSelect.code : EdgeSelect → Byte
  | .rise => 1 | .fall => 2 | .both => 3
def levelCode : Level → Byte
  | .low => 0 | .high => 1
def levelMark : Option Level → Byte
  | none => noneMark
  | some l => levelCode l
def Force.code : Force → Byte
  | .none => 0 | .low => 1 | .high => 2
def ClaimResult.code : ClaimResult → Byte
  | .claimed => 1 | .adopted => 2 | .alreadyOwned => 3
def StepPolicy.code : StepPolicy → Byte
  | .allowStep => 0 | .noStep => 1
def NoteKind.code : NoteKind → Byte
  | .actionResult => 1 | .journalReady => 2 | .syncChange => 3 | .planPending => 4 | .planOutcome => 5
  | .planApplied => 6 | .programForced => 7 | .inputStopped => 8
/-- The kind code of the OVERFLOW entry. -/
def overflowCode : Byte := 9
def Result.code : Result → Byte
  | .ok => 0x00 | .late => 0x01 | .skipped => 0x02 | .unsynced => 0x03 | .badValue => 0x04 | .unknownKind => 0x05
  | .noSession => 0x06 | .alreadyOpen => 0x07 | .notOwner => 0x10 | .heldByOther => 0x11 | .lineBusy => 0x12
  | .wrongMode => 0x13 | .outOfHorizon => 0x14 | .quota => 0x15 | .scheduleFull => 0x16 | .unknown => 0x17
  | .superseded => 0x18 | .cancelled => 0x19 | .notCurrent => 0x20 | .planBusy => 0x30 | .staleVote => 0x31
  | .notVoter => 0x32 | .alreadyVoted => 0x33 | .alreadyAgreed => 0x34 | .rejected => 0x35 | .expired => 0x36
  | .withdrawn => 0x37

/-! ### Codes the part receives (9.7); none for a value that is not one of the field's codes -/

def actionKindOf (b : Byte) : Option ActionKind :=
  if b = 1 then some .set else if b = 2 then some .clear else if b = 3 then some .toggle
  else if b = 4 then some .pulseHigh else if b = 5 then some .pulseLow else none
def latePolicyOf (b : Byte) : Option LatePolicy := if b = 1 then some .runLate else if b = 2 then some .skip else none
def syncClassOf (b : Byte) : Option SyncClass := if b = 0 then some .any else if b = 1 then some .held else none
def yesNoOf (b : Byte) : Option Bool := if b = 0 then some false else if b = 1 then some true else none
def modeOf (b : Byte) : Option Mode :=
  if b = 0 then some .off else if b = 1 then some .input else if b = 2 then some .outputEvent
  else if b = 3 then some .outputCycle else none
def driveOf (b : Byte) : Option Drive :=
  if b = 0 then some .low else if b = 1 then some .high else if b = 2 then some .highz else none
def edgeSelectOf (b : Byte) : Option EdgeSelect :=
  if b = 1 then some .rise else if b = 2 then some .fall else if b = 3 then some .both else none
def levelOf (b : Byte) : Option Level := if b = 0 then some .low else if b = 1 then some .high else none
def forceOf (b : Byte) : Option Force :=
  if b = 0 then some .none else if b = 1 then some .low else if b = 2 then some .high else none
def stepPolicyOf (b : Byte) : Option StepPolicy :=
  if b = 0 then some .allowStep else if b = 1 then some .noStep else none

/-- The plan a PLAN_PROPOSE carries, when every field is in the range of the table in 6.1 (R118, check 2). -/
def planOf (f : PlanFields) : Option Plan :=
  match yesNoOf f.refEnable, stepPolicyOf f.stepPolicy with
  | some en, some pol =>
    if 1000 ≤ f.frameLength.toNat ∧ 1 ≤ f.slewLimit.toNat ∧ 1 ≤ f.voteWindow.toNat ∧ 1 ≤ f.portQuota.toNat
        ∧ f.portQuota.toNat ≤ 128 then
      some ⟨f.frameLength, en, f.slipWindow, f.slewLimit, pol, f.holdoverLimit, f.voteWindow, f.portQuota⟩
    else none
  | _, _ => none

/-! ### Request kinds (R171) -/

def kindNone : Byte := 0x00
def kindOpen : Byte := 0x01
def kindClose : Byte := 0x02
def kindStatusRead : Byte := 0x03
def kindTimeRead : Byte := 0x10
def kindActionPost : Byte := 0x20
def kindActionCancel : Byte := 0x21
def kindActionQuery : Byte := 0x22
def kindLineClaim : Byte := 0x30
def kindLineRelease : Byte := 0x31
def kindLineConfig : Byte := 0x32
def kindLineDrive : Byte := 0x33
def kindLineQuery : Byte := 0x34
def kindCycleStage : Byte := 0x35
def kindSubscribe : Byte := 0x40
def kindJournalRead : Byte := 0x41
def kindNoteRead : Byte := 0x50
def kindNoteAck : Byte := 0x51
def kindPlanPropose : Byte := 0x60
def kindPlanVote : Byte := 0x61
def kindPlanWithdraw : Byte := 0x62
def kindPlanRead : Byte := 0x63

/-! ### CRC-8 (R170) -/

/-- One left shift of the register, reduced by the generator 0x9B when a 1 leaves at the top. -/
def crcShift (r : Byte) : Byte := if r.msb then (r <<< 1) ^^^ 0x9B else r <<< 1

/-- One byte taken into the register: exclusive-OR, then eight shifts. -/
def crcByte (r b : Byte) : Byte :=
  crcShift (crcShift (crcShift (crcShift (crcShift (crcShift (crcShift (crcShift (r ^^^ b))))))))

/-- The CRC-8 of the bytes of a message, from the register at 0. -/
def crc8 (bytes : List Byte) : Byte := bytes.foldl crcByte 0

/-! ### MOSI bits (R135) -/

/-- The complete bytes of a transaction's MOSI bits, most significant bit first; bits of an incomplete byte are dropped. -/
def bytesOfBits : List Bool → List Byte
  | b7 :: b6 :: b5 :: b4 :: b3 :: b2 :: b1 :: b0 :: rest =>
    BitVec.ofBoolListBE [b7, b6, b5, b4, b3, b2, b1, b0] :: bytesOfBits rest
  | _ => []

/-- The bits of bytes as MOSI carries them. -/
def bitsOfBytes : List Byte → List Bool
  | [] => []
  | b :: rest =>
    b.getLsbD 7 :: b.getLsbD 6 :: b.getLsbD 5 :: b.getLsbD 4 :: b.getLsbD 3 :: b.getLsbD 2 :: b.getLsbD 1 :: b.getLsbD 0
      :: bitsOfBytes rest

/-! ### Request bodies (9.3) -/

/-- The command a request body of a known kind asks for; none when the body length is not the kind's fixed length
(R141, R171). -/
def requestOf (p : PortId) (kind id : Byte) (body : List Byte) : Option Instr :=
  if kind = kindNone then match body with
    | [] => some (.noneRequest p id)
    | _ => none
  else if kind = kindOpen then match body with
    | [e1, e0, s1, s0] => some (.openSession p id (e1 ++ e0) (s1 ++ s0))
    | _ => none
  else if kind = kindClose then match body with
    | [] => some (.closeSession p id)
    | _ => none
  else if kind = kindStatusRead then match body with
    | [] => some (.statusRead p id)
    | _ => none
  else if kind = kindTimeRead then match body with
    | [] => some (.timeRead p id)
    | _ => none
  else if kind = kindActionPost then match body with
    | [l, k, w2, w1, w0, d5, d4, d3, d2, d1, d0, lp, sc, nt, t1, t0] =>
      some (.actionPost p id l k (w2 ++ w1 ++ w0) (d5 ++ d4 ++ d3 ++ d2 ++ d1 ++ d0) lp sc nt (t1 ++ t0))
    | _ => none
  else if kind = kindActionCancel then match body with
    | [sel, a3, a2, a1, a0] => some (.actionCancel p id sel (a3 ++ a2 ++ a1 ++ a0))
    | _ => none
  else if kind = kindActionQuery then match body with
    | [n3, n2, n1, n0] => some (.actionQuery p id (n3 ++ n2 ++ n1 ++ n0))
    | _ => none
  else if kind = kindLineClaim then match body with
    | [l] => some (.lineClaim p id l)
    | _ => none
  else if kind = kindLineRelease then match body with
    | [l] => some (.lineRelease p id l)
    | _ => none
  else if kind = kindLineConfig then match body with
    | [l, m, sf, r, e, i] => some (.lineConfig p id l m sf r e i)
    | _ => none
  else if kind = kindLineDrive then match body with
    | [l, v] => some (.lineDrive p id l v)
    | _ => none
  else if kind = kindLineQuery then match body with
    | [l] => some (.lineQuery p id l)
    | _ => none
  else if kind = kindCycleStage then match body with
    | [l, a2, a1, a0, b2, b1, b0, f] => some (.cycleStage p id l (a2 ++ a1 ++ a0) (b2 ++ b1 ++ b0) f)
    | _ => none
  else if kind = kindSubscribe then match body with
    | [s1, s0] => some (.subscribe p id (s1 ++ s0))
    | _ => none
  else if kind = kindJournalRead then match body with
    | [m] => some (.journalRead p id m)
    | _ => none
  else if kind = kindNoteRead then match body with
    | [] => some (.noteRead p id)
    | _ => none
  else if kind = kindNoteAck then match body with
    | [n1, n0] => some (.noteAck p id (n1 ++ n0))
    | _ => none
  else if kind = kindPlanPropose then match body with
    | [l2, l1, l0, re, w1, w0, sl, sp, h1, h0, vw, q] =>
      some (.planPropose p id ⟨l2 ++ l1 ++ l0, re, w1 ++ w0, sl, sp, h1 ++ h0, vw, q⟩)
    | _ => none
  else if kind = kindPlanVote then match body with
    | [n1, n0, d] => some (.planVote p id (n1 ++ n0) d)
    | _ => none
  else if kind = kindPlanWithdraw then match body with
    | [] => some (.planWithdraw p id)
    | _ => none
  else if kind = kindPlanRead then match body with
    | [] => some (.planRead p id)
    | _ => none
  else some (.unknownKind p kind id body)

/-- The framing check at the rise of CS_n (R140, R141), over the complete bytes received: the command taken, or none when
the request fails framing. Bytes after the request's whole length are ignored. -/
def parseFrame (p : PortId) (bytes : List Byte) : Option Instr :=
  match bytes with
  | kind :: id :: len :: rest =>
    if Config.maxRequestBody < len.toNat then none
    else if rest.length < len.toNat + 1 then none
    else if rest[len.toNat]? = some (crc8 (kind :: id :: len :: rest.take len.toNat)) then
      requestOf p kind id (rest.take len.toNat)
    else none
  | _ => none

/-! ### The encoder of requests: what a controller sends, written from the same tables -/

def PlanFields.bytes (f : PlanFields) : List Byte :=
  be3 f.frameLength ++ [f.refEnable] ++ be2 f.slipWindow ++ [f.slewLimit, f.stepPolicy] ++ be2 f.holdoverLimit ++
    [f.voteWindow, f.portQuota]

/-- The port, kind, id and body of a request command; none for a command that is no request. -/
def requestFields : Instr → Option (PortId × Byte × Byte × List Byte)
  | .noneRequest p id => some (p, kindNone, id, [])
  | .unknownKind p kind id body => some (p, kind, id, body)
  | .openSession p id e s => some (p, kindOpen, id, be2 e ++ be2 s)
  | .closeSession p id => some (p, kindClose, id, [])
  | .statusRead p id => some (p, kindStatusRead, id, [])
  | .timeRead p id => some (p, kindTimeRead, id, [])
  | .actionPost p id l k w d lp sc nt tag => some (p, kindActionPost, id, [l, k] ++ be3 w ++ be6 d ++ [lp, sc, nt] ++ be2 tag)
  | .actionCancel p id sel arg => some (p, kindActionCancel, id, [sel] ++ be4 arg)
  | .actionQuery p id n => some (p, kindActionQuery, id, be4 n)
  | .lineClaim p id l => some (p, kindLineClaim, id, [l])
  | .lineRelease p id l => some (p, kindLineRelease, id, [l])
  | .lineConfig p id l m sf r e i => some (p, kindLineConfig, id, [l, m, sf, r, e, i])
  | .lineDrive p id l v => some (p, kindLineDrive, id, [l, v])
  | .lineQuery p id l => some (p, kindLineQuery, id, [l])
  | .cycleStage p id l a b f => some (p, kindCycleStage, id, [l] ++ be3 a ++ be3 b ++ [f])
  | .subscribe p id x => some (p, kindSubscribe, id, be2 x)
  | .journalRead p id m => some (p, kindJournalRead, id, [m])
  | .noteRead p id => some (p, kindNoteRead, id, [])
  | .noteAck p id n => some (p, kindNoteAck, id, be2 n)
  | .planPropose p id f => some (p, kindPlanPropose, id, PlanFields.bytes f)
  | .planVote p id n d => some (p, kindPlanVote, id, be2 n ++ [d])
  | .planWithdraw p id => some (p, kindPlanWithdraw, id, [])
  | .planRead p id => some (p, kindPlanRead, id, [])
  | .resetNAssert _ | .resetNRelease | .prstAssert _ | .prstRelease _ | .cclkCount _ _ | .frameBoundaryEvent
  | .holdoverLimitExpiry | .voteWindowExpiry | .refinEdge | .backwardStep | .forwardStep | .actionDue
  | .pulseTrailingEdge | .lineLevelChange _ _ | .responseChoice _ | .transactionEnd _ _ => none

/-- A request message: header, body and CRC-8 (9.3). -/
def frameBytes (kind id : Byte) (body : List Byte) : List Byte :=
  let message := [kind, id, BitVec.ofNat 8 body.length] ++ body
  message ++ [crc8 message]

end Sys2Proof.Machine
end

