-- ==== Sys2Proof/Machine/Encode.lean ====
section
/-! DEFINITION. The bytes of a response (9.4), of journal items (9.5) and of notifications on the link (9.6). -/

namespace Sys2Proof.Machine

/-- The plan record in 12 bytes (9.3). -/
def Plan.bytes (r : Plan) : List Byte :=
  be3 r.frameLength ++ [flagByte r.refEnable] ++ be2 r.slipWindow ++ [r.slewLimit, r.stepPolicy.code] ++ be2 r.holdoverLimit ++
    [r.voteWindow, r.portQuota]

/-- A journal item in 21 bytes (R173). -/
def JournalItem.bytes : JournalItem → List Byte
  | .gap n => be4 (BitVec.ofNat 32 n) ++ List.replicate 13 0 ++ [noneMark] ++ List.replicate 3 0
  | .capture r =>
    be4 r.sequence ++ be6 r.t ++ be4 r.frame ++ be3 r.phase ++
      [lineByte r.line ||| (match r.edge with | .rise => 0x00 | .fall => 0x10)] ++ [r.quality.code] ++ be2 r.epoch

/-- The body of a notification from offset 0 of the body area (R174). -/
def NoteBody.bytes : NoteBody → List Byte
  | .actionResult n tag k out t ep => be4 n ++ be2 tag ++ [lineByte k, out.code] ++ be6 t ++ be2 ep
  | .journalReady u m => nat2 u ++ nat2 m
  | .syncChange st ep e => [st.code] ++ be2 ep ++ error3 e
  | .planPending n q r => be2 n ++ [portByte q] ++ r.bytes
  | .planOutcome n out => be2 n ++ [out.code]
  | .planApplied n f => be2 n ++ be4 f
  | .programForced k f => [lineByte k] ++ be4 f
  | .inputStopped k => [lineByte k]

/-- The 16-byte body area: the body and zeros after it (R174). -/
def area16 (bs : List Byte) : List Byte := bs ++ List.replicate (16 - bs.length) 0

/-- The NOTE_READ answer in 23 bytes (R174). -/
def NoteAnswer.bytes (r : NoteAnswer) : List Byte :=
  match r.head with
  | .empty => be2 0 ++ [0, 0] ++ nat1 r.queued ++ nat2 r.lost ++ area16 []
  | .ordinary n =>
    be2 n.number ++ [n.body.kind.code] ++ nat1 n.repeats ++ nat1 r.queued ++ nat2 r.lost ++ area16 n.body.bytes
  | .overflow o =>
    be2 o.number ++ [overflowCode] ++ nat1 o.repeats ++ nat1 r.queued ++ nat2 r.lost ++ area16 (nat2 o.lost)

/-- The line record of LINE_QUERY in 33 bytes (9.4.1). -/
def LineReport.bytes (r : LineReport) : List Byte :=
  [lineByte r.number, r.record.mode.code, portMark r.record.owner, flagByte r.record.retain, r.record.safe.code,
    r.record.edge.code, levelCode r.record.initial, levelMark r.record.driven, levelMark r.record.last] ++
  (match r.record.active with
    | none => be3 0 ++ be3 0 ++ [noneMark]
    | some g => be3 g.rise ++ be3 g.fall ++ [g.force.code]) ++
  (match r.record.staged with
    | none => be3 0 ++ be3 0 ++ [0, 0]
    | some g =>
      be3 g.program.rise ++ be3 g.program.fall ++ [g.program.force.code, if g.stager.isSome then 3 else 1]) ++
  nat1 r.entries ++ be6 r.t ++ be2 r.epoch

/-- The line record of a LINE_QUERY answer that has none: zeros but for the none and absent markers (R169, log 11). -/
def noLineRecord : List Byte :=
  [0, 0, noneMark, 0, 0, 0, 0, noneMark, noneMark] ++ be3 0 ++ be3 0 ++ [noneMark] ++ be3 0 ++ be3 0 ++ [0, 0] ++ nat1 0 ++
    be6 0 ++ be2 0

/-- The record fields of an ACTION_QUERY answer (9.4). -/
def Entry.bytes (x : Entry) : List Byte :=
  be4 x.number ++ [portMark x.owner, lineByte x.line, x.kind.code] ++ be3 x.width ++ be6 x.due ++
    [x.late.code, x.sync.code, flagByte x.notify] ++ be2 x.tag ++
    (match x.pulse with
      | none => [1] ++ be6 0 ++ [0]
      | some g => [2] ++ be6 g.endTime ++ [g.start.code])

/-- The record fields of an ACTION_QUERY answered UNKNOWN: zeros but for the owner's none marker (R169, log 11). -/
def noEntryRecord : List Byte :=
  be4 0 ++ [noneMark, 0, 0] ++ be3 0 ++ be6 0 ++ [0, 0, 0] ++ be2 0 ++ [0] ++ be6 0 ++ [0]

/-- The proposal part of a PLAN_READ answer (9.4). -/
def proposalBytes : Option Proposal → List Byte
  | none => [0] ++ be2 0 ++ [noneMark, 0, 0, 0, 0] ++ List.replicate 12 0
  | some x =>
    [1] ++ be2 x.number ++ [portByte x.proposer, proposalCode (some x.state), portSetByte x.required, portSetByte x.accepted] ++
      nat1 x.remaining ++ x.plan.bytes

/-- The bytes of a body (9.4). -/
def Body.bytes : Body → List Byte
  | .empty => []
  | .opened p n pn st => [portByte p] ++ be2 n ++ be2 pn ++ [st.code]
  | .closed n => be2 n
  | .status r =>
    [portSetByte r.sessionMap] ++ be2 r.session ++ [r.state.code] ++ be2 r.epoch ++ be2 r.planNumber ++
      [proposalCode r.proposal] ++ nat1 r.scheduleOccupancy ++ nat2 r.journalOccupancy ++ nat1 r.entryCount ++ nat2 r.missed
  | .time r =>
    be6 r.t ++ be4 r.frame ++ be3 r.phase ++ be3 r.len ++ [r.state.code] ++ be2 r.epoch ++ be2 r.planNumber ++
      error3 r.lastE ++ nat2 r.strayCount
  | .post n t ep => be4 n ++ be6 t ++ be2 ep
  | .cancel n => nat1 n
  | .query x t ep => (match x with | none => noEntryRecord | some x => x.bytes) ++ be6 t ++ be2 ep
  | .claim l r n => [l, (match r with | none => 0 | some r => r.code)] ++ nat1 n
  | .line l => [l]
  | .drive l t ep => [l] ++ be6 t ++ be2 ep
  | .lineRecord r => match r with
    | none => noLineRecord
    | some r => r.bytes
  | .stage l f forced => [l] ++ be4 f ++ [flagByte forced]
  | .subscribed x => be2 x
  | .journal items left => nat1 items.length ++ nat2 left ++ items.flatMap JournalItem.bytes
  | .note r => r.bytes
  | .ack n left => be2 n ++ nat1 left
  | .propose n rej f pn => be2 n ++ [portMark rej] ++ be4 f ++ be2 pn
  | .vote n st => be2 n ++ [proposalCode st]
  | .withdraw n => be2 n
  | .planRead r => r.record.bytes ++ be2 r.number ++ proposalBytes r.proposal

/-- The status flags of a header (9.4): bit 0 SESSION_OPEN, bit 1 ATTN, bit 2 OVERRUN, bit 3 BAD_FRAME. -/
def statusFlags (sessionOpen attn overrun badFrame : Bool) : Byte := BitVec.ofBoolListLE [sessionOpen, attn, overrun, badFrame, false, false, false, false]

/-- A whole response: header completed with flags and more count, body, CRC-8 (R136, R172). -/
def responseBytes (kind id : Byte) (result : Result) (flags : Byte) (more : Nat) (body : List Byte) : List Byte :=
  let message := [kind, id, result.code, flags] ++ nat1 more ++ nat1 body.length ++ body
  message ++ [crc8 message]

end Sys2Proof.Machine
end

