-- ==== Sys2Proof/Machine/Flags.lean ====
section
/-! DEFINITION. What follows the state to the end of the count: the program level of cyclic lines, the output pins, the
reports that show the end of the count, the quality of captures and the body of SYNC_CHANGE; and the header flags. -/

namespace Sys2Proof.Machine

/-! ### Levels and pins -/

/-- The program level for a phase and a frame length (R61). A phase is always below L, so a ≤ p ≤ L − 1 is a ≤ p. -/
def programLevel (g : Program) (phase : Phase) : Level :=
  match g.force with
  | .high => .high
  | .low => .low
  | .none =>
    let a := g.rise.toNat
    let b := g.fall.toNat
    let p := phase.toNat
    if a < b then (if a ≤ p ∧ p < b then .high else .low)
    else if b < a then (if a ≤ p ∨ p < b then .high else .low)
    else .low

/-- The driven level of an OUTPUT_CYCLE line is the program level of its active program in every count (R51, R61). -/
def Line.atPhase (phase : Phase) (l : Line) : Line :=
  match l.mode, l.active with
  | .outputCycle, some g => { l with driven := some (programLevel g phase) }
  | _, _ => l

def levelDrive : Level → Drive
  | .low => .low
  | .high => .high

/-- What the pin of a line shows (R51). -/
def Line.pin (l : Line) : Drive :=
  match l.mode with
  | .off => l.safe
  | .input => .highz
  | .outputEvent => (l.driven.map levelDrive).getD .highz
  | .outputCycle => (l.driven.map levelDrive).getD .highz

/-- ATTN_n: low when the queue holds at least one entry (R166). -/
def NoteQueue.attn (q : NoteQueue) : Level := if q.size = 0 then .high else .low

/-! ### Counts of entries and records -/

/-- The entry count of a port (R22). -/
def State.entryCount (s : State) (p : PortId) : Nat := s.schedule.entries.countP fun x => decide (x.owner = some p)

/-- The schedule entries on a line (R72). -/
def State.entriesOn (s : State) (k : LineId) : Nat := s.schedule.entries.countP fun x => decide (x.line = k)

/-- A port's unread records, oldest first (4.1). -/
def State.unread (s : State) (p : PortId) : List Record := s.journal.records.filter fun r => r.readers.getLsbD p.val

/-! ### Reports (R17, R132, R149, R153) -/

def State.timeSnapshot (s : State) : TimeSnapshot :=
  ⟨s.time.t, s.time.frame, s.time.phase, s.time.len, s.sync.state, s.time.epoch, s.plan.number, s.sync.lastE, s.sync.strayCount⟩

def State.statusReport (s : State) (p : PortId) : StatusReport where
  sessionMap := s.openPorts
  session := (s.port p).session
  state := s.sync.state
  epoch := s.time.epoch
  planNumber := s.plan.number
  proposal := s.plan.proposal.map (·.state)
  scheduleOccupancy := s.schedule.entries.length
  journalOccupancy := s.journal.records.length
  entryCount := s.entryCount p
  missed := s.missed p

def State.planReport (s : State) : PlanReport := ⟨s.plan.record, s.plan.number, s.plan.proposal⟩

def State.openReport (s : State) (p : PortId) : Body := .opened p (s.port p).session s.plan.number s.sync.state

/-- The body of SYNC_CHANGE (R112). -/
def State.syncBody (s : State) : NoteBody := .syncChange s.sync.state s.time.epoch s.sync.lastE

/-! ### Following the end of the count -/

/-- A capture of the count in progress carries the sync state of the count's end (R74). -/
def Record.refresh (s : State) (r : Record) : Record :=
  if r.stamp = s.count.serial then { r with quality := s.sync.state } else r

/-- A SYNC_CHANGE posted in the count in progress carries the state, epoch and e of the count's end (R112). -/
def Note.refresh (s : State) (n : Note) : Note :=
  if n.stamp = s.count.serial ∧ n.body.kind = .syncChange then { n with body := s.syncBody } else n

def JournalItem.refresh (s : State) : JournalItem → JournalItem
  | .gap n => .gap n
  | .capture r => .capture (r.refresh s)

def NoteHead.refresh (s : State) : NoteHead → NoteHead
  | .empty => .empty
  | .ordinary n => .ordinary (n.refresh s)
  | .overflow o => .overflow o

/-- The body of an answer made in the count in progress, as the end of the count shows it: whole for the snapshots of
TIME_READ (R16), STATUS_READ (R153), PLAN_READ (R132) and OPEN (R149); for a JOURNAL_READ the quality of captures of the
same count (R74, R90); for a NOTE_READ the body of a SYNC_CHANGE of the same count (R112, R165). The other answers are
fixed when they are made. -/
def Body.refresh (s : State) (p : PortId) (b : Body) : Body :=
  match b with
  | .opened _ _ _ _ => s.openReport p
  | .status _ => .status (s.statusReport p)
  | .time _ => .time s.timeSnapshot
  | .planRead _ => .planRead s.planReport
  | .journal items left => .journal (items.map (JournalItem.refresh s)) left
  | .note r => .note { r with head := r.head.refresh s }
  | .empty | .closed _ | .post _ _ _ | .cancel _ | .query _ _ _ | .claim _ _ _ | .line _ | .drive _ _ _ | .lineRecord _
  | .stage _ _ _ | .subscribed _ | .ack _ _ | .propose _ _ _ _ | .vote _ _ | .withdraw _ => b

def Response.refresh (s : State) (p : PortId) (r : Response) : Response :=
  if r.stamp = s.count.serial then { r with body := r.body.refresh s p } else r

/-- A port's responses brought to the state `s` of the count's end. -/
def refreshPort (s : State) (p : PortId) (q : Port) : Port := { q with responses := q.responses.map (Response.refresh s p) }

/-- The lines at the phase of the count (R61). -/
def State.settleLines (s : State) : State := { s with lines := mapVector (Line.atPhase s.time.phase) s.lines }

/-- The records, notifications and answers of the count in progress brought to its end (R74, R112, R16, R132, R153). -/
def State.settleReports (s : State) : State :=
  { s with
    journal := { s.journal with records := s.journal.records.map (Record.refresh s) }
    notes := mapVector (fun q => { q with entries := q.entries.map (Note.refresh s) }) s.notes
    ports := #v[refreshPort s 0 s.ports[0], refreshPort s 1 s.ports[1], refreshPort s 2 s.ports[2], refreshPort s 3 s.ports[3]] }

/-- The output pins at the end of the count as far as it has gone (R51, R166). -/
def State.settlePins (s : State) : State :=
  { s with outputs := ⟨mapVector Line.pin s.lines, mapVector NoteQueue.attn s.notes⟩ }

/-- The state as the count stands if nothing more happens in it. Every command ends with it. -/
def State.settle (s : State) : State := s.settleLines.settleReports.settlePins

/-! ### Header flags (R147, R148) -/

/-- The status flags of a header chosen now. -/
def State.headerFlags (s : State) (p : PortId) : Byte :=
  statusFlags (s.isOpen p) (decide ((s.queue p).size ≠ 0)) (s.port p).overrun (s.port p).badFrame

/-- The response chosen at a fall of CS_n (R136): the oldest queued one, else EMPTY; header, more count and CRC-8 completed. -/
def State.choose (s : State) (p : PortId) : Chosen :=
  match (s.port p).responses with
  | [] => ⟨true, (s.port p).overrun, (s.port p).badFrame, responseBytes kindNone 0 .ok (s.headerFlags p) 0 []⟩
  | r :: rest =>
    ⟨false, (s.port p).overrun, (s.port p).badFrame,
      responseBytes r.kind r.id r.result (s.headerFlags p) rest.length r.body.bytes⟩

/-! ### MISO_n (R134, R135, R151) -/

/-- Byte `n` of a transaction on MISO_n: the chosen response from its first byte on, then 0xFF (R135). -/
def Chosen.byteAt (c : Chosen) (n : Nat) : Byte := c.bytes.getD n 0xFF

/-- What MISO_n carries as byte `n` of the transaction under way; none where the pin is not driven: while RESET_N or PRST_n
is low (R134, R151), while CS_n is high, and in a transaction that is ignored or abandoned, which has no chosen response
(R135, R151). -/
def State.miso (s : State) (p : PortId) (n : Nat) : Option Byte :=
  if s.handles p && (s.port p).csLow then (s.port p).chosen.map fun c => c.byteAt n else none

/-- Bit `k` of a transaction on MISO_n: its bytes one after another, each most significant bit first (R135). -/
def Chosen.bitAt (c : Chosen) (k : Nat) : Bool := (c.byteAt (k / 8)).getMsbD (k % 8)

/-- The level of MISO_n in the transaction under way when SCK_n has fallen `k` times in it, true for high: bit `k`, which a
controller samples at the next rise of SCK_n (R135, log 20); none where the pin is not driven. -/
def State.misoBit (s : State) (p : PortId) (k : Nat) : Option Bool :=
  (s.miso p (k / 8)).map fun b => b.getMsbD (k % 8)

end Sys2Proof.Machine
end

