-- ==== Sys2Proof/Machine/Schedule.lean ====
section
/-! DEFINITION. The action schedule (chapter 2): placement, performing actions, resolution when due and at steps, the
requests ACTION_POST, ACTION_CANCEL and ACTION_QUERY as the schedule takes them, and the orphaning and adoption of entries. -/

namespace Sys2Proof.Machine

/-! ### The list (R20 to R22) -/

/-- The effective time: due time when PENDING, end time when IN_PULSE (R20). -/
def Entry.effective (x : Entry) : TimeCount :=
  match x.pulse with
  | none => x.due
  | some g => g.endTime

/-- Placement after every entry whose effective time is at or before the new one's, measured forward from `ref` (R21). -/
def place (ref : TimeCount) (x : Entry) : List Entry → List Entry
  | [] => [x]
  | y :: ys => if forward ref y.effective ≤ forward ref x.effective then y :: place ref x ys else x :: y :: ys

def ActionKind.isPulse : ActionKind → Bool
  | .pulseHigh => true
  | .pulseLow => true
  | .set => false
  | .clear => false
  | .toggle => false

/-- The entry with a number removed. -/
def removeNumber (n : BitVec 32) (es : List Entry) : List Entry := es.eraseP fun x => decide (x.number = n)

/-! ### What an action does to its line (R31) -/

/-- A level handed to the line table: the driven level of an OUTPUT_EVENT line (R60). -/
def State.handLevel (k : LineId) (v : Level) (s : State) : State :=
  s.modLine k fun l => if l.mode = .outputEvent then { l with driven := some v } else l

/-- The level a leading action hands, given the driven level at that moment. -/
def ActionKind.leading (kind : ActionKind) (driven : Level) : Level :=
  match kind with
  | .set => .high
  | .clear => .low
  | .toggle => driven.opposite
  | .pulseHigh => .high
  | .pulseLow => .low

/-- The level a trailing action hands; only pulses have one. -/
def ActionKind.trailing : ActionKind → Option Level
  | .pulseHigh => some .low
  | .pulseLow => some .high
  | .set => none
  | .clear => none
  | .toggle => none

/-- The leading action of a kind on a line. A driven level is present on every OUTPUT_EVENT line (log 25). -/
def State.lead (k : LineId) (kind : ActionKind) (s : State) : State :=
  s.handLevel k (kind.leading ((s.line k).driven.getD .low))

/-- The trailing action of a kind on a line. -/
def State.trail (k : LineId) (kind : ActionKind) (s : State) : State :=
  match kind.trailing with
  | none => s
  | some v => s.handLevel k v

/-- The HELD check (R32). -/
def heldPasses (st : SyncState) (cls : SyncClass) : Bool :=
  match cls, st with
  | .any, _ => true
  | .held, .locked => true
  | .held, .holdover => true
  | .held, .free => false
  | .held, .acquire => false
  | .held, .realign => false

/-! ### Resolution (R45) -/

/-- The ACTION_RESULT of a resolution: posted when the entry's notify is yes and it has an owner; the queue discards it
when the owner is not open (R45, R158). An ORPHANED resolution posts nothing (R46). -/
def State.report (x : Entry) (out : Outcome) (s : State) : State :=
  match x.owner with
  | none => s
  | some p =>
    if x.notify ∧ out ≠ .orphaned then
      s.post p (.actionResult x.number x.tag x.line out s.time.t s.time.epoch)
    else s

/-- A resolution: the entry leaves the list with an outcome (R45). -/
def State.resolve (x : Entry) (out : Outcome) (s : State) : State :=
  (s.setEntries (removeNumber x.number s.schedule.entries)).report x out

/-- A pulse entry placed again as IN_PULSE (R35, R38). -/
def State.startPulse (x : Entry) (g : Pulse) (s : State) : State :=
  s.setEntries (place s.count.ref { x with pulse := some g } (removeNumber x.number s.schedule.entries))

/-- The outcome of a trailing edge (R36, R38). -/
def Start.outcome : Start → Outcome
  | .onTime => .done
  | .late => .late

/-- A jumped entry at a forward step (R38): `held` is the sync state of the step's order. -/
def State.resolveJumped (held : SyncState) (x : Entry) (s : State) : State :=
  match x.pulse with
  | some g => (s.trail x.line x.kind).resolve x g.start.outcome
  | none =>
    match x.late with
    | .skip => s.resolve x .skipped
    | .runLate =>
      if !heldPasses held x.sync then s.resolve x .unsynced
      else if x.kind.isPulse then
        (s.lead x.line x.kind).startPulse x ⟨s.time.t + x.width.zeroExtend 48, .late⟩
      else (s.lead x.line x.kind).resolve x .late

/-- A due entry (R34, R35, R36). -/
def State.resolveDue (x : Entry) (s : State) : State :=
  match x.pulse with
  | some g => (s.trail x.line x.kind).resolve x g.start.outcome
  | none =>
    if !heldPasses s.sync.state x.sync then s.resolve x .unsynced
    else if x.kind.isPulse then
      (s.lead x.line x.kind).startPulse x ⟨x.due + x.width.zeroExtend 48, .onTime⟩
    else (s.lead x.line x.kind).resolve x .done

/-- The entry has been reached or jumped and waits for its resolution in the count in progress (R33, R38). -/
def State.isDue (s : State) (x : Entry) : Bool := !ahead s.time.t x.effective

/-- The resolution of one entry: as jumped when the count is a forward step and the entry's time lies before T_new, else
as due (R38, R39). -/
def State.resolveOne (x : Entry) (s : State) : State :=
  match s.count.move with
  | .forward held => if x.effective = s.time.t then s.resolveDue x else s.resolveJumped held x
  | .ordinary => s.resolveDue x
  | .insertion => s.resolveDue x
  | .deletion => s.resolveDue x
  | .backward => s.resolveDue x

/-- Resolutions at the head of the list, one after another, for as long as the head is due and `go` holds (R33). A
resolution removes the entry or places it again as IN_PULSE, so twice the length is fuel enough. -/
def resolveHeads (go : State → Bool) : Nat → State → State
  | 0, s => s
  | fuel + 1, s =>
    match s.schedule.entries with
    | [] => s
    | x :: _ => if s.isDue x && go s then resolveHeads go fuel (s.resolveOne x) else s

def State.resolveFuel (s : State) : Nat := 2 * s.schedule.entries.length

/-- Some PENDING entry is due. -/
def State.pendingDue (s : State) : Bool := s.schedule.entries.any fun x => x.pulse.isNone && s.isDue x
/-- Some IN_PULSE entry is due. -/
def State.pulseDue (s : State) : Bool := s.schedule.entries.any fun x => x.pulse.isSome && s.isDue x

/-- Every due entry resolved (R33). -/
def State.resolveAll (s : State) : State := resolveHeads (fun _ => true) s.resolveFuel s

/-- The due PENDING entries resolved, in list order with the due entries that stand before them (R33, log 14). -/
def State.resolvePending (s : State) : State := resolveHeads State.pendingDue s.resolveFuel s

/-- The first due IN_PULSE entry resolved, in list order after the due entries that stand before it (R33, R36, log 14). -/
def resolveToPulse : Nat → State → State
  | 0, s => s
  | fuel + 1, s =>
    match s.schedule.entries with
    | [] => s
    | x :: _ =>
      if s.isDue x then
        (if x.pulse.isSome then s.resolveOne x else resolveToPulse fuel (s.resolveOne x))
      else s

/-! ### ACTION_POST (R24 to R30) -/

/-- The answer to an ACTION_POST: result, number, and the T and epoch of the count (R30). -/
def State.answerPost (p : PortId) (id : Byte) (r : Result) (n : BitVec 32) (s : State) : State :=
  s.respond p kindActionPost id r (.post n s.time.t s.time.epoch)

/-- The numbers the entries of the list carry. -/
def State.numbers (s : State) : List (BitVec 32) := s.schedule.entries.map (·.number)

/-- The action number counter moved on after its value was assigned (R19). -/
def State.bumpActions (s : State) : State :=
  { s with schedule := { s.schedule with counter := advanceCounter s.numbers s.schedule.counter } }

/-- The quota and capacity checks of R26, in their order; none when both pass. -/
def State.roomCheck (p : PortId) (s : State) : Option Result :=
  if s.plan.record.portQuota.toNat ≤ s.entryCount p then some .quota
  else if Config.scheduleCapacity ≤ s.schedule.entries.length then some .scheduleFull
  else none

/-- A post whose fields passed check 3: the new entry, without its state, for the number the counter gives. -/
structure PostFields where
  line : LineId
  kind : ActionKind
  width : Phase
  due : TimeCount
  late : LatePolicy
  sync : SyncClass
  notify : Bool
  tag : BitVec 16
  deriving DecidableEq, Repr

def PostFields.entry (f : PostFields) (p : PortId) (n : BitVec 32) (g : Option Pulse) : Entry :=
  ⟨n, some p, f.line, f.kind, f.width, f.due, f.late, f.sync, f.notify, f.tag, g⟩

/-- Check 3 of R24: the fields, when every one is in range (R25). -/
def postFieldsOf (k : LineId) (kind : Byte) (width : Phase) (due : TimeCount) (late sync notify : Byte) (tag : BitVec 16) :
    Option PostFields :=
  match actionKindOf kind, latePolicyOf late, syncClassOf sync, yesNoOf notify with
  | some kd, some lp, some sc, some nt =>
    if kd.isPulse = decide (width ≠ 0) then some ⟨k, kd, width, due, lp, sc, nt, tag⟩ else none
  | _, _, _, _ => none

/-- A future post (R26). -/
def State.postFuture (p : PortId) (id : Byte) (f : PostFields) (s : State) : State :=
  match s.roomCheck p with
  | some r => s.answerPost p id r 0
  | none =>
    ((s.setEntries (place s.count.ref (f.entry p s.schedule.counter none) s.schedule.entries)).bumpActions).answerPost p id
      .ok s.schedule.counter

/-- A late post of SET, CLEAR or TOGGLE with RUN_LATE (R28). -/
def State.postLateAction (p : PortId) (id : Byte) (f : PostFields) (s : State) : State :=
  if heldPasses s.sync.state f.sync then
    (s.bumpActions.lead f.line f.kind).answerPost p id .late s.schedule.counter
  else s.bumpActions.answerPost p id .unsynced s.schedule.counter

/-- A late pulse with RUN_LATE (R29). -/
def State.postLatePulse (p : PortId) (id : Byte) (f : PostFields) (s : State) : State :=
  match s.roomCheck p with
  | some r => s.answerPost p id r 0
  | none =>
    if heldPasses s.sync.state f.sync then
      (((s.lead f.line f.kind).setEntries (place s.count.ref
        (f.entry p s.schedule.counter (some ⟨s.time.t + f.width.zeroExtend 48, .late⟩)) s.schedule.entries)).bumpActions).answerPost
        p id .late s.schedule.counter
    else s.bumpActions.answerPost p id .unsynced s.schedule.counter

/-- A post that passed checks 1 to 4: late when its due time is equal to T or behind it (R24, check 5). -/
def State.postChecked (p : PortId) (id : Byte) (f : PostFields) (s : State) : State :=
  if ahead s.time.t f.due then s.postFuture p id f
  else match f.late with
    | .skip => s.answerPost p id .skipped 0
    | .runLate => if f.kind.isPulse then s.postLatePulse p id f else s.postLateAction p id f

/-- ACTION_POST as the schedule takes it (R24). -/
def State.actionPost (p : PortId) (id line kind : Byte) (width : Phase) (due : TimeCount) (late sync notify : Byte)
    (tag : BitVec 16) (s : State) : State :=
  match lineOf line with
  | none => s.answerPost p id .notOwner 0
  | some k =>
    if (s.line k).owner ≠ some p then s.answerPost p id .notOwner 0
    else if (s.line k).mode ≠ .outputEvent then s.answerPost p id .wrongMode 0
    else match postFieldsOf k kind width due late sync notify tag with
      | none => s.answerPost p id .badValue 0
      | some f => if withinHorizon s.time.t due then s.postChecked p id f else s.answerPost p id .outOfHorizon 0

/-! ### ACTION_CANCEL (R41, R42) -/

/-- One entry cancelled: the trailing action of an IN_PULSE entry, then CANCELLED (R42). -/
def State.cancelOne (s : State) (x : Entry) : State :=
  ((if x.pulse.isSome then s.trail x.line x.kind else s).resolve x .cancelled)

def State.answerCancel (p : PortId) (id : Byte) (r : Result) (n : Nat) (s : State) : State :=
  s.respond p kindActionCancel id r (.cancel n)

/-- The selected entries cancelled one after another in list order, and the count answered (R41, R42). -/
def State.cancelAll (p : PortId) (id : Byte) (sel : Entry → Bool) (s : State) : State :=
  ((s.schedule.entries.filter sel).foldl State.cancelOne s).answerCancel p id .ok (s.schedule.entries.filter sel).length

/-- ACTION_CANCEL as the schedule takes it (R41): selectors ONE 1, TAG 2, LINE 3. -/
def State.actionCancel (p : PortId) (id selector : Byte) (argument : BitVec 32) (s : State) : State :=
  if selector = 1 then
    match s.schedule.entries.find? (fun x => decide (x.number = argument)) with
    | none => s.answerCancel p id .unknown 0
    | some x =>
      if x.owner = some p then s.cancelAll p id (fun y => decide (y.number = argument))
      else s.answerCancel p id .notOwner 0
  else if selector = 2 then
    let tag := argument.extractLsb' 0 16
    if tag = 0 then s.answerCancel p id .badValue 0
    else s.cancelAll p id (fun y => decide (y.owner = some p ∧ y.tag = tag))
  else if selector = 3 then
    match lineOf (argument.extractLsb' 0 8) with
    | none => s.answerCancel p id .badValue 0
    | some k => s.cancelAll p id (fun y => decide (y.owner = some p ∧ y.line = k))
  else s.answerCancel p id .badValue 0

/-! ### ACTION_QUERY (R44) -/

/-- ACTION_QUERY as the schedule takes it. -/
def State.actionQuery (p : PortId) (id : Byte) (number : BitVec 32) (s : State) : State :=
  match s.schedule.entries.find? (fun x => decide (x.number = number)) with
  | none => s.respond p kindActionQuery id .unknown (.query none s.time.t s.time.epoch)
  | some x => s.respond p kindActionQuery id .ok (.query (some x) s.time.t s.time.epoch)

/-! ### Owners that leave and ports that adopt (R46 to R48) -/

/-- The entries of a line that is not retained are resolved ORPHANED: removed, nothing performed, nothing posted (R46). -/
def State.orphanResolve (k : LineId) (s : State) : State :=
  s.setEntries (s.schedule.entries.filter fun x => decide (x.line ≠ k))

/-- The entries of a retained line become orphans: owner none, notify no (R47). -/
def State.orphanKeep (k : LineId) (s : State) : State :=
  s.setEntries (s.schedule.entries.map fun x => if x.line = k then { x with owner := none, notify := false } else x)

/-- The orphans on a line. -/
def State.orphansOn (s : State) (k : LineId) : Nat :=
  s.schedule.entries.countP fun x => decide (x.line = k ∧ x.owner = none)

/-- The orphans on a claimed line take the claiming port as owner (R48). -/
def State.adopt (k : LineId) (p : PortId) (s : State) : State :=
  s.setEntries (s.schedule.entries.map fun x =>
    if x.line = k ∧ x.owner = none then { x with owner := some p } else x)

end Sys2Proof.Machine
end

