-- ==== Sys2Proof/Machine/Lines.lean ====
section
/-! DEFINITION. The line table (chapter 3): claim, release, configuration, drive, cyclic programs, the frame boundary
event, and the owner's session end. Requests as the line table takes them. -/

namespace Sys2Proof.Machine

/-! ### Leaving INPUT and discarding programs -/

/-- INPUT_STOPPED to every open session whose subscription set contains the line (R68). -/
def State.stopInput (k : LineId) (s : State) : State :=
  forPorts (fun q t => if (t.subs q).getLsbD k.val then t.post q (.inputStopped k) else t) s

/-- A level change of a line not yet handed over is dropped when the line leaves INPUT first (R67, log 16). -/
def State.dropChange (k : LineId) (s : State) : State :=
  { s with count := { s.count with changes := s.count.changes.filter fun x => decide (x.1 ≠ k) } }

/-- Leaving INPUT with a session open: INPUT_STOPPED is posted and the line is no longer sampled (R57, R55, R70). -/
def State.leaveInput (k : LineId) (s : State) : State :=
  if (s.line k).mode = .input then (s.stopInput k).dropChange k else s

/-- The pending stager of the line's staged program answered (R55, R57, R63, R64); nothing where there is none. -/
def State.answerStager (k : LineId) (r : Result) (body : Body) (s : State) : State :=
  match (s.line k).staged with
  | none => s
  | some g =>
    match g.stager with
    | none => s
    | some q => s.answerDeferred q.1 (.line k) r body

/-- A staged program discarded, its pending CYCLE_STAGE answered CANCELLED (R55, R57). -/
def State.discardStaged (k : LineId) (s : State) : State :=
  (s.answerStager k .cancelled (.stage (lineByte k) 0 false)).modLine k fun l => { l with staged := none }

/-- A line gone to OFF: safe level, edge select and initial level kept (R55, R70). -/
def Line.toFree (l : Line) : Line :=
  { l with mode := .off, owner := none, retain := false, driven := none, last := none, active := none, staged := none }

/-! ### LINE_CLAIM and LINE_RELEASE (R53, R55) -/

def State.answerClaim (p : PortId) (id line : Byte) (r : Result) (c : Option ClaimResult) (n : Nat) (s : State) : State :=
  s.respond p kindLineClaim id r (.claim line c n)

def State.lineClaim (p : PortId) (id line : Byte) (s : State) : State :=
  match lineOf line with
  | none => s.answerClaim p id line .badValue none 0
  | some k =>
    match (s.line k).owner with
    | some q => if q = p then s.answerClaim p id line .ok (some .alreadyOwned) 0 else s.answerClaim p id line .heldByOther none 0
    | none =>
      if (s.line k).retain then
        ((s.modLine k fun l => { l with owner := some p }).adopt k p).answerClaim p id line .ok (some .adopted) (s.orphansOn k)
      else (s.modLine k fun l => { l with owner := some p }).answerClaim p id line .ok (some .claimed) 0

def State.answerRelease (p : PortId) (id line : Byte) (r : Result) (s : State) : State :=
  s.respond p kindLineRelease id r (.line line)

def State.lineRelease (p : PortId) (id line : Byte) (s : State) : State :=
  match lineOf line with
  | none => s.answerRelease p id line .notOwner
  | some k =>
    if (s.line k).owner ≠ some p then s.answerRelease p id line .notOwner
    else if s.entriesOn k ≠ 0 then s.answerRelease p id line .lineBusy
    else (((s.discardStaged k).leaveInput k).modLine k Line.toFree).answerRelease p id line .ok

/-! ### LINE_CONFIG (R56 to R58) -/

/-- The five configurable fields of a LINE_CONFIG. -/
structure LineFields where
  mode : Mode
  safe : Drive
  retain : Bool
  edge : EdgeSelect
  initial : Level
  deriving DecidableEq, Repr

/-- Check 2 of R56. -/
def lineFieldsOf (mode safe retain edge initial : Byte) : Option LineFields :=
  match modeOf mode, driveOf safe, yesNoOf retain, edgeSelectOf edge, levelOf initial with
  | some m, some sf, some r, some e, some i => some ⟨m, sf, r, e, i⟩
  | _, _, _, _, _ => none

/-- The fields other than mode (R58). -/
def Line.withFields (f : LineFields) (l : Line) : Line :=
  { l with safe := f.safe, retain := f.retain, edge := f.edge, initial := f.initial }

/-- The entry program of OUTPUT_CYCLE: 0%, force LOW (R57). -/
def entryProgram : Program := ⟨0, 0, .low⟩

/-- A line entering a mode it was not in (R57). -/
def Line.enter (f : LineFields) (l : Line) : Line :=
  let l := { l with mode := f.mode, driven := none, last := none, active := none, staged := none }
  match f.mode with
  | .off => l
  | .input => l
  | .outputEvent => { l with driven := some f.initial }
  | .outputCycle => { l with active := some entryProgram, driven := some .low }

def State.answerConfig (p : PortId) (id line : Byte) (r : Result) (s : State) : State :=
  s.respond p kindLineConfig id r (.line line)

/-- An accepted LINE_CONFIG (R56 to R58). -/
def State.applyConfig (k : LineId) (f : LineFields) (s : State) : State :=
  if f.mode = (s.line k).mode then s.modLine k (Line.withFields f)
  else ((s.discardStaged k).leaveInput k).modLine k fun l => (l.withFields f).enter f

def State.lineConfig (p : PortId) (id line mode safe retain edge initial : Byte) (s : State) : State :=
  match lineOf line with
  | none => s.answerConfig p id line .notOwner
  | some k =>
    if (s.line k).owner ≠ some p then s.answerConfig p id line .notOwner
    else match lineFieldsOf mode safe retain edge initial with
      | none => s.answerConfig p id line .badValue
      | some f =>
        if f.mode ≠ (s.line k).mode ∧ s.entriesOn k ≠ 0 then s.answerConfig p id line .lineBusy
        else (s.applyConfig k f).answerConfig p id line .ok

/-! ### LINE_DRIVE and LINE_QUERY (R59, R72) -/

def State.lineDrive (p : PortId) (id line level : Byte) (s : State) : State :=
  match lineOf line with
  | none => s.respond p kindLineDrive id .notOwner (.drive line 0 0)
  | some k =>
    if (s.line k).owner ≠ some p then s.respond p kindLineDrive id .notOwner (.drive line 0 0)
    else if (s.line k).mode ≠ .outputEvent then s.respond p kindLineDrive id .wrongMode (.drive line 0 0)
    else match levelOf level with
      | none => s.respond p kindLineDrive id .badValue (.drive line 0 0)
      | some v => (s.handLevel k v).respond p kindLineDrive id .ok (.drive line s.time.t s.time.epoch)

def State.lineQuery (p : PortId) (id line : Byte) (s : State) : State :=
  match lineOf line with
  | none => s.respond p kindLineQuery id .badValue (.lineRecord none)
  | some k =>
    s.respond p kindLineQuery id .ok (.lineRecord (some ⟨k, (s.line k).atPhase s.time.phase, s.entriesOn k, s.time.t, s.time.epoch⟩))

/-! ### CYCLE_STAGE (R63) -/

def State.refuseStage (p : PortId) (id line : Byte) (r : Result) (s : State) : State :=
  s.respond p kindCycleStage id r (.stage line 0 false)

/-- An accepted CYCLE_STAGE: a pending stager already in the slot is answered SUPERSEDED, the program takes the slot, and
the request is held deferred. -/
def State.acceptStage (p : PortId) (id : Byte) (k : LineId) (g : Program) (s : State) : State :=
  ((s.answerStager k .superseded (.stage (lineByte k) 0 false)).modLine k fun l =>
    { l with staged := some ⟨g, some (p, id)⟩ }).hold p kindCycleStage id (.line k)

def State.cycleStage (p : PortId) (id line : Byte) (rise fall : Phase) (force : Byte) (s : State) : State :=
  match lineOf line with
  | none => s.refuseStage p id line .notOwner
  | some k =>
    if (s.line k).owner ≠ some p then s.refuseStage p id line .notOwner
    else if (s.line k).mode ≠ .outputCycle then s.refuseStage p id line .wrongMode
    else match forceOf force with
      | none => s.refuseStage p id line .badValue
      | some f =>
        if rise.toNat < s.time.len.toNat ∧ fall.toNat < s.time.len.toNat then s.acceptStage p id k ⟨rise, fall, f⟩
        else s.refuseStage p id line .badValue

/-! ### The line table at a frame boundary event (R64, R65) -/

/-- A program is out of range of a frame length (R65). -/
def Program.outOfRange (g : Program) (len : Phase) : Bool :=
  decide (len.toNat ≤ g.rise.toNat) || decide (len.toNat ≤ g.fall.toNat)

/-- The activation check (R65): a program out of range is forced LOW, its phases kept. -/
def Program.checked (g : Program) (len : Phase) : Program := if g.outOfRange len then { g with force := .low } else g

/-- PROGRAM_FORCED to the line's owner when the check changes a force that was not LOW (R65). -/
def State.reportForced (k : LineId) (g : Program) (len : Phase) (s : State) : State :=
  match (s.line k).owner with
  | none => s
  | some p => if g.outOfRange len ∧ g.force ≠ .low then s.post p (.programForced k s.time.frame) else s

/-- One OUTPUT_CYCLE line at the event: a staged program is swapped in, checked and answered (R64); else, when a plan
applies, the active program is checked (R65). `len` is the length of the frame that begins. -/
def State.boundaryLine (len : Phase) (applied : Bool) (k : LineId) (s : State) : State :=
  if (s.line k).mode ≠ .outputCycle then s
  else match (s.line k).staged with
    | some g =>
      ((s.answerStager k .ok (.stage (lineByte k) s.time.frame (g.program.outOfRange len))).modLine k fun l =>
        { l with active := some (g.program.checked len), staged := none }).reportForced k g.program len
    | none =>
      match (s.line k).active with
      | none => s
      | some g =>
        if applied then (s.modLine k fun l => { l with active := some (g.checked len) }).reportForced k g len else s

/-- The line table at a frame boundary event. -/
def State.boundaryLines (len : Phase) (applied : Bool) (s : State) : State := forLines (State.boundaryLine len applied) s

/-! ### The owner's session end (R69, R70) -/

/-- A retained line: owner and stager become none, its entries become orphans (R69, R47). -/
def State.retainLine (k : LineId) (s : State) : State :=
  (s.modLine k fun l => { l with owner := none, staged := l.staged.map fun g => { g with stager := none } }).orphanKeep k

/-- A line that is not retained: entries ORPHANED, programs dropped, INPUT_STOPPED, OFF at its safe level (R70, R46). -/
def State.dropLine (k : LineId) (s : State) : State := ((s.orphanResolve k).leaveInput k).modLine k Line.toFree

/-- The session end of port `p` at line `k`. -/
def State.lineSessionEnd (p : PortId) (k : LineId) (s : State) : State :=
  if (s.line k).owner ≠ some p then s
  else if (s.line k).retain ∧ (s.line k).mode ≠ .off then s.retainLine k
  else s.dropLine k

/-- The session end of port `p` at every line it owns, in ascending order (log 12). -/
def State.linesSessionEnd (p : PortId) (s : State) : State := forLines (State.lineSessionEnd p) s

/-! ### Sampling (R66, R67) -/

/-- The edge from one sampled level to another. -/
def edgeBetween (old new : Level) : Option Edge :=
  match old, new with
  | .low, .high => some .rise
  | .high, .low => some .fall
  | .low, .low => none
  | .high, .high => none

/-- An edge matches an edge select. -/
def EdgeSelect.matches (sel : EdgeSelect) (e : Edge) : Bool :=
  match sel, e with
  | .both, _ => true
  | .rise, .rise => true
  | .rise, .fall => false
  | .fall, .fall => true
  | .fall, .rise => false

/-- The level an edge leads to. -/
def Edge.level : Edge → Level
  | .rise => .high
  | .fall => .low

def pinLevel (x : LineSet) (k : LineId) : Level := if x.getLsbD k.val then .high else .low

/-- A matching level change recognised on a sampled line: it waits to be handed over. -/
def Line.change (l : Line) (v : Level) : Option Edge :=
  match l.mode, l.last with
  | .input, some old =>
    match edgeBetween old v with
    | some e => if l.edge.matches e then some e else none
    | none => none
  | _, _ => none

/-- The last sample after the count's sample, where no matching change waits: the first sample, an equal one, or a change
that is handed to nobody (R66). A matching change updates it when it is taken (log 16). -/
def Line.sampled (v : Level) (l : Line) : Line :=
  match l.mode with
  | .input => if (l.change v).isSome then l else { l with last := some v }
  | .off => l
  | .outputEvent => l
  | .outputCycle => l

/-- Every INPUT line sampled once in the count, at the levels of its pins. -/
def State.sampleLines (x : LineSet) (s : State) : State :=
  let found := allLines.filterMap fun k => ((s.line k).change (pinLevel x k)).map fun e => (k, e)
  { forLines (fun k t => t.modLine k (Line.sampled (pinLevel x k))) s with count := { s.count with changes := found } }

end Sys2Proof.Machine
end

