-- ==== Sys2Proof/Machine/Journal.lean ====
section
/-! DEFINITION. The capture journal (chapter 4): storing a capture, eviction, retirement, JOURNAL_READY, SUBSCRIBE,
JOURNAL_READ, and a session end. -/

namespace Sys2Proof.Machine

/-- A port's unread count (4.1). -/
def State.unreadCount (s : State) (p : PortId) : Nat := (s.unread p).length

/-- The reader set of a capture of a line: open ports whose subscription set contains it (R78). -/
def State.readersOf (s : State) (k : LineId) : PortSet := portSet fun p => s.isOpen p && (s.subs p).getLsbD k.val

/-- The oldest record evicted when the list is full, its readers charged (R81, R82). -/
def State.evict (s : State) : State :=
  if s.journal.records.length < Config.journalCapacity then s
  else match s.journal.records with
    | [] => s
    | r :: rest =>
      forPorts (fun p t => if r.readers.getLsbD p.val then t.setMissed p (satInc 65535 (t.missed p)) else t)
        (s.setRecords rest)

/-- A capture appended with the counter's sequence number, and the counter moved on (R75, R80, R74). -/
def State.append (k : LineId) (e : Edge) (readers : PortSet) (s : State) : State :=
  let n := s.journal.counter
  let r : Record :=
    ⟨n, k, e, s.time.t, s.time.frame, s.time.phase, s.sync.state, s.time.epoch, readers, s.count.serial⟩
  let rs := s.journal.records ++ [r]
  { s with journal := { s.journal with records := rs, counter := advanceCounter (rs.map (·.sequence)) n } }

/-- A case of R84 holds for a port: its unread or missed count left 0 in the handling of a capture, from `before` to `s`. -/
def State.readyCase (before s : State) (p : PortId) : Bool :=
  decide (before.unreadCount p = 0) && decide (s.unreadCount p ≠ 0) || decide (before.missed p = 0) && decide (s.missed p ≠ 0)

/-- A case of R84 met for a port by a capture of the count in progress: no later capture of the count posts to it, be there
a JOURNAL_READ between them or not (R84 against R90, log 28). -/
def State.markReady (p : PortId) (s : State) : State :=
  s.modCount fun c => { c with readyPosted := withPort c.readyPosted p }

/-- JOURNAL_READY considered for a port at the end of a capture's handling (R84): posted at the first capture of the count
that meets a case, with the counts of that moment (R85). `before` is the state before the handling. For a JOURNAL_READ
between two captures of one count, the first of which met a case, R90 has the second one post again and R84 does not: the
model follows R84 (the model's choice, log 28). -/
def State.considerReady (before : State) (p : PortId) (s : State) : State :=
  if before.readyCase s p && !s.count.readyPosted.getLsbD p.val then
    (s.post p (.journalReady (s.unreadCount p) (s.missed p))).markReady p
  else s

/-- A capture handed over by the line table (R78, R80, R81): stored for its readers, or not stored. -/
def State.capture (k : LineId) (e : Edge) (s : State) : State :=
  if s.readersOf k = 0 then s
  else forPorts (State.considerReady s) (s.evict.append k e (s.readersOf k))

/-- One waiting level change taken: the sample becomes the last sample and the capture goes to the journal (R66). -/
def State.takeChange (s : State) (x : LineId × Edge) : State :=
  (s.modLine x.1 fun l => { l with last := some x.2.level }).capture x.1 x.2

/-- The waiting level changes of lines up to `k`, taken in ascending line number (R79). -/
def State.takeChangesTo (k : LineId) (s : State) : State :=
  let now := s.count.changes.takeWhile fun x => decide (x.1 ≤ k)
  let later := s.count.changes.dropWhile fun x => decide (x.1 ≤ k)
  now.foldl State.takeChange { s with count := { s.count with changes := later } }

/-! ### SUBSCRIBE (R86) -/

def State.subscribeTo (p : PortId) (id : Byte) (x : LineSet) (s : State) : State :=
  (s.setSubs p x).respond p kindSubscribe id .ok (.subscribed x)

/-! ### JOURNAL_READ (R88, R89) -/

/-- A port removed from the reader sets of the records with the given sequence numbers; records left without readers
retire (R83, R89). -/
def dropReader (p : PortId) (sent : List (BitVec 32)) (rs : List Record) : List Record :=
  (rs.map fun r => if r.sequence ∈ sent then { r with readers := withoutPort r.readers p } else r).filter
    fun r => decide (r.readers ≠ 0)

/-- An accepted JOURNAL_READ of up to `maximum` items. -/
def State.readItems (p : PortId) (id : Byte) (maximum : Nat) (s : State) : State :=
  let gap : List JournalItem := if s.missed p = 0 then [] else [.gap (s.missed p)]
  let sent := (s.unread p).take (maximum - gap.length)
  let left := s.unreadCount p - sent.length
  ((s.setMissed p 0).setRecords (dropReader p (sent.map (·.sequence)) s.journal.records)).respond p kindJournalRead id .ok
    (.journal (gap ++ sent.map .capture) left)

def State.journalRead (p : PortId) (id maximum : Byte) (s : State) : State :=
  if maximum.toNat = 0 ∨ 6 < maximum.toNat then s.respond p kindJournalRead id .badValue (.journal [] 0)
  else s.readItems p id maximum.toNat

/-! ### A session end (R91) -/

def State.journalSessionEnd (p : PortId) (s : State) : State :=
  ((s.setRecords ((s.journal.records.map fun r => { r with readers := withoutPort r.readers p }).filter
    fun r => decide (r.readers ≠ 0))).setSubs p 0).setMissed p 0

end Sys2Proof.Machine
end

