-- ==== Sys2Proof/Machine/Notes.lean ====
section
/-! DEFINITION. Reading and acknowledging notifications (8.5), and a session end at the queue (R167). -/

namespace Sys2Proof.Machine

/-- The head entry: the oldest ordinary entry, or the OVERFLOW entry when there is none (R163). -/
def NoteQueue.head (q : NoteQueue) : NoteHead :=
  match q.entries, q.overflow with
  | n :: _, _ => .ordinary n
  | [], some o => .overflow o
  | [], none => .empty

/-- The lost count of the OVERFLOW entry; 0 when it is absent (R163). -/
def NoteQueue.lost (q : NoteQueue) : Nat :=
  match q.overflow with
  | none => 0
  | some o => o.lost

/-- The NOTE_READ answer of a queue (R163). -/
def NoteQueue.answer (q : NoteQueue) : NoteAnswer := ⟨q.head, q.size, q.lost⟩

/-- NOTE_READ as the queue takes it. -/
def State.noteRead (p : PortId) (id : Byte) (s : State) : State :=
  s.respond p kindNoteRead id .ok (.note (s.queue p).answer)

/-- The queue without the entry that carries a number (R164). -/
def NoteQueue.remove (n : BitVec 16) (q : NoteQueue) : NoteQueue :=
  { q with
    entries := q.entries.filter fun x => decide (x.number ≠ n)
    overflow := match q.overflow with
      | none => none
      | some o => if o.number = n then none else some o }

/-- NOTE_ACK as the queue takes it (R164). -/
def State.noteAck (p : PortId) (id : Byte) (n : BitVec 16) (s : State) : State :=
  if n ∈ (s.queue p).numbers then
    (s.modQueue p (NoteQueue.remove n)).respond p kindNoteAck id .ok (.ack n ((s.queue p).remove n).size)
  else s.respond p kindNoteAck id .notCurrent (.ack n (s.queue p).size)

/-- The queue at its port's session end: entries removed, enable set empty, counter kept (R167). -/
def NoteQueue.cleared (q : NoteQueue) : NoteQueue := { q with entries := [], overflow := none, enable := 0 }

end Sys2Proof.Machine
end

