-- ==== Sys2Proof/Machine/Plan.lean ====
section
/-! DEFINITION. The plan unit (chapter 6): proposing, voting, withdrawal, expiry, application, and session ends. -/

namespace Sys2Proof.Machine

/-- A notification to every port of a set, in ascending order (R133). -/
def State.postSet (x : PortSet) (body : NoteBody) (s : State) : State :=
  forPorts (fun p t => if x.getLsbD p.val then t.post p body else t) s

/-- The proposer request answered, where it stands (R119, R126). -/
def State.answerProposer (x : Proposal) (r : Result) (body : Body) (s : State) : State :=
  match x.request with
  | none => s
  | some q => s.answerDeferred q.1 .plan r body

/-! ### PLAN_PROPOSE (R118, R119) -/

def State.refusePropose (p : PortId) (id : Byte) (r : Result) (n : BitVec 16) (s : State) : State :=
  s.respond p kindPlanPropose id r (.propose n none 0 0)

/-- The proposal created by an accepted PLAN_PROPOSE (R119). -/
def State.newProposal (s : State) (p : PortId) (id : Byte) (r : Plan) : Proposal :=
  { number := s.plan.counter
    proposer := p
    plan := r
    required := withoutPort s.openPorts p
    accepted := 0
    remaining := s.plan.record.voteWindow.toNat
    state := if withoutPort s.openPorts p = 0 then .agreed else .voting
    request := some (p, id) }

/-- The proposal counter moved on: no proposal is in the way when one is created, so only 0 is skipped (R116). -/
def State.bumpProposals (s : State) : State :=
  { s with plan := { s.plan with counter := advanceCounter [] s.plan.counter } }

def State.acceptPropose (p : PortId) (id : Byte) (r : Plan) (s : State) : State :=
  (((s.setProposal (some (s.newProposal p id r))).bumpProposals).hold p kindPlanPropose id .plan).postSet
    (s.newProposal p id r).required (.planPending s.plan.counter p r)

def State.planPropose (p : PortId) (id : Byte) (f : PlanFields) (s : State) : State :=
  match s.plan.proposal with
  | some x => s.refusePropose p id .planBusy x.number
  | none =>
    match planOf f with
    | none => s.refusePropose p id .badValue 0
    | some r => s.acceptPropose p id r

/-! ### PLAN_VOTE (R121 to R123) -/

def State.answerVote (p : PortId) (id : Byte) (r : Result) (n : BitVec 16) (st : Option ProposalState) (s : State) : State :=
  s.respond p kindPlanVote id r (.vote n st)

/-- The proposal ends without applying: answered and reported, then removed (R123, R124, R125). -/
def State.endProposal (x : Proposal) (told : PortSet) (r : Result) (rejecting : Option PortId) (out : PlanOutcome)
    (s : State) : State :=
  ((s.answerProposer x r (.propose x.number rejecting 0 0)).postSet told (.planOutcome x.number out)).setProposal none

/-- The state of a proposal whose accepted set may have become complete (R122, R129). -/
def Proposal.decided (x : Proposal) : Proposal :=
  match x.state with
  | .agreed => x
  | .voting => if x.accepted = x.required then { x with state := .agreed } else x

/-- A proposal with one port more in its accepted set (R122). -/
def Proposal.withVote (x : Proposal) (p : PortId) : Proposal := { x with accepted := withPort x.accepted p }.decided

/-- An ACCEPT that passed the checks (R122). -/
def State.acceptVote (p : PortId) (id : Byte) (x : Proposal) (s : State) : State :=
  (s.setProposal (some (x.withVote p))).answerVote p id .ok x.number (some (x.withVote p).state)

/-- A REJECT that passed the checks (R123). -/
def State.rejectVote (p : PortId) (id : Byte) (x : Proposal) (s : State) : State :=
  (s.endProposal x (withoutPort x.required p) .rejected (some p) .rejected).answerVote p id .ok x.number none

/-- PLAN_VOTE as the plan unit takes it (R121); decision codes ACCEPT 1, REJECT 2. -/
def State.planVote (p : PortId) (id : Byte) (n : BitVec 16) (decision : Byte) (s : State) : State :=
  if decision ≠ 1 ∧ decision ≠ 2 then s.answerVote p id .badValue n none
  else match s.plan.proposal with
    | none => s.answerVote p id .staleVote n none
    | some x =>
      if x.number ≠ n then s.answerVote p id .staleVote n none
      else if !x.required.getLsbD p.val then s.answerVote p id .notVoter n none
      else if x.state = .agreed then s.answerVote p id .alreadyAgreed n none
      else if x.accepted.getLsbD p.val then s.answerVote p id .alreadyVoted n none
      else if decision = 1 then s.acceptVote p id x
      else s.rejectVote p id x

/-! ### PLAN_WITHDRAW and PLAN_READ (R124, R132) -/

def State.answerWithdraw (p : PortId) (id : Byte) (r : Result) (n : BitVec 16) (s : State) : State :=
  s.respond p kindPlanWithdraw id r (.withdraw n)

def State.planWithdraw (p : PortId) (id : Byte) (s : State) : State :=
  match s.plan.proposal with
  | none => s.answerWithdraw p id .notOwner 0
  | some x =>
    if x.proposer ≠ p then s.answerWithdraw p id .notOwner 0
    else match x.state with
      | .agreed => s.answerWithdraw p id .alreadyAgreed x.number
      | .voting => (s.endProposal x x.required .withdrawn none .withdrawn).answerWithdraw p id .ok x.number

def State.planRead (p : PortId) (id : Byte) (s : State) : State := s.respond p kindPlanRead id .ok (.planRead s.planReport)

/-! ### A frame boundary event at the plan unit (R125, R126) -/

/-- A proposal applies at the event in progress (R126). -/
def State.planApplies (s : State) : Bool :=
  match s.plan.proposal with
  | none => false
  | some x => decide (x.state = .agreed)

/-- The vote window of a proposal falls to 0 at the event in progress (R125). -/
def State.voteExpires (s : State) : Bool :=
  match s.plan.proposal with
  | none => false
  | some x => decide (x.state = .voting) && decide (x.remaining - 1 = 0)

/-- The plan record replaced and the plan number increased (R115, R126). -/
def State.setPlan (r : Plan) (s : State) : State := { s with plan := { s.plan with record := r, number := s.plan.number + 1 } }

/-- PLAN_APPLIED to every open session (R126, R133). -/
def State.announcePlan (s : State) : State := forPorts (fun p t => t.post p (.planApplied t.plan.number t.time.frame)) s

/-- The application of an agreed proposal (R126). The frame number carried by the event is that of the new frame. -/
def State.applyPlan (x : Proposal) (s : State) : State :=
  (((s.setPlan x.plan).announcePlan).answerProposer x .ok
    (.propose x.number none s.time.frame (s.plan.number + 1))).setProposal none

/-- The plan unit at a frame boundary event. -/
def State.boundaryPlan (s : State) : State :=
  match s.plan.proposal with
  | none => s
  | some x =>
    match x.state with
    | .agreed => s.applyPlan x
    | .voting =>
      if x.remaining - 1 = 0 then s.endProposal x x.required .expired none .expired
      else s.setProposal (some { x with remaining := x.remaining - 1 })

/-! ### Session ends (R129, R130) -/

/-- The proposer's session end (R130): withdrawn in VOTING, kept without its request in AGREED. -/
def State.proposerEnds (x : Proposal) (s : State) : State :=
  match x.state with
  | .voting => (s.postSet x.required (.planOutcome x.number .withdrawn)).setProposal none
  | .agreed => s.setProposal (some { x with request := none })

/-- A voter's session end (R129): it leaves both sets, which may complete the agreement. -/
def Proposal.withoutVoter (x : Proposal) (p : PortId) : Proposal :=
  { x with required := withoutPort x.required p, accepted := withoutPort x.accepted p }.decided

/-- The session end of a port at the plan unit. A proposer is never in its own required set. -/
def State.planSessionEnd (p : PortId) (s : State) : State :=
  match s.plan.proposal with
  | none => s
  | some x =>
    if x.proposer = p then s.proposerEnds x
    else if x.required.getLsbD p.val then s.setProposal (some (x.withoutVoter p))
    else s

end Sys2Proof.Machine
end

