-- ==== Sys2Proof/Machine/Sync.lean ====
section
/-! DEFINITION. The sync unit (chapter 5): SYNC_CHANGE, measurement, strays, the correction, the frame boundary event and
taking up a plan. -/

namespace Sys2Proof.Machine

/-! ### SYNC_CHANGE (R111, R112) -/

/-- An occasion of SYNC_CHANGE: one post per count to every open session that enables it (R112); made at the first
occasion of the count (log 8). The body follows the end of the count (`Note.refresh`). -/
def State.noteSync (s : State) : State :=
  if s.count.syncPosted then s
  else forPorts (fun p t => t.post p t.syncBody) { s with count := { s.count with syncPosted := true } }

/-! ### Measurement (R95 to R100, R107) -/

/-- The error of an edge at a phase (R96). -/
def errorAt (phase len : Phase) : Int :=
  if phase.toNat ≤ len.toNat / 2 then (phase.toNat : Int) else (phase.toNat : Int) - (len.toNat : Int)

/-- Aligned: |e| ≤ 2 (R96). -/
def aligned (e : Int) : Bool := decide (e.natAbs ≤ 2)

/-- The state and run counts after a measurement, by the state it finds (R107). -/
def SyncUnit.measureState (e : Int) (u : SyncUnit) : SyncUnit :=
  match u.state with
  | .free => u
  | .acquire =>
    if aligned e then (if 4 ≤ u.alignedRun + 1 then { u with state := .locked, alignedRun := 0 }
      else { u with alignedRun := u.alignedRun + 1 })
    else { u with alignedRun := 0 }
  | .locked => if aligned e then u else { u with state := .realign, alignedRun := 0 }
  | .realign =>
    if aligned e then (if 4 ≤ u.alignedRun + 1 then { u with state := .locked, alignedRun := 0 }
      else { u with alignedRun := u.alignedRun + 1 })
    else { u with alignedRun := 0 }
  | .holdover => { u with state := .realign, alignedRun := if aligned e then 1 else 0, holdoverCount := 0 }

/-- A measured error is stepped (R99). -/
def Plan.steps (r : Plan) (e : Int) : Bool := decide (r.stepPolicy = .allowStep) && decide (r.slipWindow.toNat < e.natAbs)

/-- The correction decided after the state change (R99, R100): a step ordered with c cleared, or c = e. -/
def SyncUnit.correct (r : Plan) (e : Int) (u : SyncUnit) : SyncUnit :=
  if r.steps e then { u with c := 0, stepOrder := some ⟨e, u.state⟩ } else { u with c := e }

/-- A measurement whole at the sync unit (R107). -/
def SyncUnit.measure (r : Plan) (e : Int) (u : SyncUnit) : SyncUnit :=
  ({ u with lastE := e, missedRun := 0, measured := true }.measureState e).correct r e

/-- A measured edge (R107). A measurement that orders a step gives its occasion of SYNC_CHANGE in the step count (R111). -/
def State.measureEdge (s : State) : State :=
  if s.plan.record.steps (errorAt s.time.phase s.time.len) ∨
      (SyncUnit.measure s.plan.record (errorAt s.time.phase s.time.len) s.sync).state = s.sync.state then
    s.modSync (SyncUnit.measure s.plan.record (errorAt s.time.phase s.time.len))
  else (s.modSync (SyncUnit.measure s.plan.record (errorAt s.time.phase s.time.len))).noteSync

/-- A recognised REFIN edge handled: discarded in FREE (R94), a stray after the first of the frame (R97), else measured. -/
def State.handleEdge (s : State) : State :=
  if s.sync.state = .free then s
  else if s.sync.measured then s.modSync fun u => { u with strayCount := satInc 65535 u.strayCount }
  else s.measureEdge

/-! ### The frame boundary event (R98, R104, R105, R108, R109) -/

/-- The close of the measurement frame that ended, in the states other than HOLDOVER (R98, R104). -/
def SyncUnit.closeFrame (u : SyncUnit) : SyncUnit :=
  if u.measured then u
  else match u.state with
    | .free => u
    | .holdover => u
    | .acquire =>
      if 3 ≤ u.missedRun + 1 then { u with alignedRun := 0, missedRun := 0 } else { u with missedRun := u.missedRun + 1 }
    | .locked =>
      if 3 ≤ u.missedRun + 1 then { u with state := .holdover, c := 0, alignedRun := 0, missedRun := 0, holdoverCount := 0 }
      else { u with missedRun := u.missedRun + 1 }
    | .realign =>
      if 3 ≤ u.missedRun + 1 then { u with state := .holdover, c := 0, alignedRun := 0, missedRun := 0, holdoverCount := 0 }
      else { u with missedRun := u.missedRun + 1 }

/-- The holdover limit expires at an event whose count would be `n` (R105). -/
def holdoverExpired (limit : BitVec 16) (n : Nat) : Bool := decide (limit ≠ 0) && decide (limit.toNat ≤ n)

/-- A holdover frame counted and the limit checked (R105). -/
def SyncUnit.countHoldover (limit : BitVec 16) (u : SyncUnit) : SyncUnit :=
  let n := satInc 65535 u.holdoverCount
  if holdoverExpired limit n then { u with state := .acquire, alignedRun := 0, missedRun := 0, holdoverCount := 0 }
  else { u with holdoverCount := n }

/-- Steps 1 and 2 of R108, with the holdover limit in force before the event: a HOLDOVER entered in step 1 is not counted. -/
def SyncUnit.closeAt (limit : BitVec 16) (u : SyncUnit) : SyncUnit :=
  if u.state = .holdover then u.closeFrame.countHoldover limit else u.closeFrame

/-- Step 3 of R108: a new plan taken up (R109). -/
def SyncUnit.takeUp (enable : Bool) (u : SyncUnit) : SyncUnit :=
  if enable then (if u.state = .free then { u with state := .acquire } else u)
  else if u.state = .free then u
  else { u with state := .free, c := 0, alignedRun := 0, missedRun := 0, holdoverCount := 0 }

/-- The sync unit changed by `f`, with an occasion of SYNC_CHANGE when its state changed. -/
def State.changeSync (f : SyncUnit → SyncUnit) (s : State) : State :=
  if (f s.sync).state = s.sync.state then s.modSync f else (s.modSync f).noteSync

/-- Steps 1 and 2 of R108. -/
def State.boundarySyncClose (s : State) : State := s.changeSync (SyncUnit.closeAt s.plan.record.holdoverLimit)

/-- Steps 3 and 4 of R108; `applied` says that a plan applied at the event. -/
def State.boundarySyncOpen (applied : Bool) (s : State) : State :=
  (if applied then s.changeSync (SyncUnit.takeUp s.plan.record.refEnable) else s).modSync fun u => { u with measured := false }

/-- The holdover limit expires at the frame boundary event in progress (R105). -/
def State.holdoverExpires (s : State) : Bool :=
  decide (s.sync.state = .holdover) && holdoverExpired s.plan.record.holdoverLimit (satInc 65535 s.sync.holdoverCount)

end Sys2Proof.Machine
end

