-- ==== Sys2Proof/Machine/Count.lean ====
section
/-! DEFINITION. A count of CCLK (chapter 1): the move, the sampling of the inputs, the frame boundary event and restart,
and the end of the count. The events of a count wait in `count` until a command takes them or the count ends (log 1). -/

namespace Sys2Proof.Machine

/-! ### The frame boundary event and the restart (R5, R6, R10) -/

/-- A correction run opens (R7). -/
def TimeBase.openRun (tb : TimeBase) : TimeBase := { tb with run := .opened, performed := 0 }

/-- The sync unit and the plan unit at a frame boundary event: the sync unit closes the frame that ended, the plan unit
counts or applies, and the sync unit takes the plan up (R108). -/
def State.boundaryPlanAndSync (s : State) : State := s.boundarySyncClose.boundaryPlan.boundarySyncOpen s.planApplies

/-- The line table at a frame boundary event, against the length of the frame that begins (R64, R65). -/
def State.boundaryTable (applied : Bool) (s : State) : State := s.boundaryLines s.plan.record.frameLength applied

/-- The time base at a frame boundary event: L in use from the plan record (R6), and a correction run opens (R7). -/
def State.boundaryTime (s : State) : State := s.modTime fun tb => { tb with len := s.plan.record.frameLength }.openRun

/-- A frame boundary event at every block that receives it (R5). The order of blocks that share nothing is the model's,
log 12. -/
def State.frameBoundary (s : State) : State := (s.boundaryPlanAndSync.boundaryTable s.planApplies).boundaryTime

/-- A frame restart at the sync unit and the time base, and the step's occasion of SYNC_CHANGE after them (R10, R108,
R111; log 12). -/
def State.frameRestart (s : State) : State :=
  ((s.modSync fun u => { u with measured := false }).modTime TimeBase.openRun).noteSync

/-- The frame event of a move: a boundary event, or a restart after a backward step; a step is an occasion of SYNC_CHANGE in
its step count (R111). R162 leaves open where the post of that occasion stands among the posts of other blocks in the event:
a forward step posts it after the whole boundary event, PLAN_* and PROGRAM_FORCED among it, where the count has posted none
yet (the model's choice, log 8, log 12). -/
def State.frameEvent (m : Move) (s : State) : State :=
  match m with
  | .backward => s.frameRestart
  | .forward _ => s.frameBoundary.noteSync
  | .ordinary => s.frameBoundary
  | .insertion => s.frameBoundary
  | .deletion => s.frameBoundary

/-- The frame event that the count raised, taken once. -/
def State.takeFrameEvent (s : State) : State :=
  if s.count.raised then (s.modCount fun c => { c with raised := false }).frameEvent s.count.move else s

/-- The REFIN edge of the count taken once, after the frame event of the same count (R95, R108). -/
def State.takeRefin (s : State) : State :=
  if s.count.refinEdge then (s.takeFrameEvent.modCount fun c => { c with refinEdge := false }).handleEdge else s

/-! ### The end of a count -/

/-- The count ends: what is still waiting in it is taken, and its reports are brought to its end (log 1). -/
def State.endCount (s : State) : State :=
  (s.takeFrameEvent.resolveAll.takeRefin.takeChangesTo 15).settle

/-! ### The move of a count (R2 to R11) -/

/-- An advance of `a` counts (R2, R4), and whether it takes the phase to or past L in use. -/
def TimeBase.advance (a : Nat) (tb : TimeBase) : TimeBase × Bool :=
  let p := tb.phase.toNat + a
  if tb.len.toNat ≤ p then
    ({ tb with t := tb.t + BitVec.ofNat 48 a, phase := BitVec.ofNat 24 (p - tb.len.toNat), frame := tb.frame + 1 }, true)
  else ({ tb with t := tb.t + BitVec.ofNat 48 a, phase := BitVec.ofNat 24 p }, false)

/-- A new count with the given move: serial number on, nothing waiting but the frame event it raised. -/
def Count.start (c : Count) (move : Move) (ref : TimeCount) (raised : Bool) : Count :=
  { serial := c.serial + 1, running := true, move := move, ref := ref, raised := raised, syncPosted := false,
    refinEdge := false, changes := [], readyPosted := 0 }

/-- A count that advances by `a` (R2 to R4). -/
def State.advanceCount (a : Nat) (move : Move) (s : State) : State :=
  let r := s.time.advance a
  { s with time := r.1, count := s.count.start move s.time.t r.2 }

/-- The correction run decided in a count that is no step (R7): with the run OPEN and c and the slew limit allowing it, an
insertion or a deletion, reported to the sync unit; else the run is CLOSED and the advance ordinary. -/
def State.correctCount (s : State) : State :=
  match s.time.run with
  | .closed => s.advanceCount 1 .ordinary
  | .opened =>
    if s.sync.c = 0 ∨ s.plan.record.slewLimit.toNat ≤ s.time.performed then
      (s.modTime fun tb => { tb with run := .closed }).advanceCount 1 .ordinary
    else
      let s' := s.modTime fun tb => { tb with performed := tb.performed + 1 }
      if 0 < s.sync.c then (s'.modSync fun u => { u with c := u.c - 1 }).advanceCount 0 .insertion
      else (s'.modSync fun u => { u with c := u.c + 1 }).advanceCount 2 .deletion

/-- The step count of a backward step (R9, R10): T and phase back at the frame's origin, epoch on. T_new is the time
placements are measured from, since nothing is resolved (R40, log 13). -/
def State.backwardCount (e : Int) (s : State) : State :=
  let t := s.time.t - BitVec.ofInt 48 e
  { s with
    time := { s.time with t := t, phase := 0, epoch := s.time.epoch + 1 }
    sync := { s.sync with stepOrder := none }
    count := s.count.start .backward t true }

/-- The step count of a forward step (R9, R11): T to the next frame's origin, frame number and epoch on. -/
def State.forwardCount (e : Int) (held : SyncState) (s : State) : State :=
  { s with
    time := { s.time with t := s.time.t - BitVec.ofInt 48 e, phase := 0, frame := s.time.frame + 1, epoch := s.time.epoch + 1 }
    sync := { s.sync with stepOrder := none }
    count := s.count.start (.forward held) s.time.t true }

/-- The move of the next count (R2): the step where one is ordered, else the correction run's choice. -/
def State.moveCount (s : State) : State :=
  match s.sync.stepOrder with
  | some o => if 0 < o.e then s.backwardCount o.e else s.forwardCount o.e o.state
  | none => s.correctCount

/-! ### Sampling of REFIN (R94) and the whole beginning of a count -/

/-- REFIN sampled once in the count: a rising edge waits to be handled; the sample becomes the last sample. -/
def State.sampleRefin (v : Level) (s : State) : State :=
  let s' := s.modSync fun u => { u with refinLast := some v }
  s'.modCount fun c => { c with refinEdge := decide (s.sync.refinLast = some .low ∧ v = .high) }

/-- The pins as the outside drives them. -/
def State.drivePins (refin : Level) (x : LineSet) (s : State) : State := { s with refinIn := refin, lineIn := x }

/-- One period of CCLK with the given input levels (R2): the count in progress ends, the next count's move is made and its
inputs are sampled. While RESET_N is low no count passes (R1). -/
def State.beginCount (refin : Level) (x : LineSet) (s : State) : State :=
  if s.resetLow then s.drivePins refin x
  else (((s.endCount.moveCount.sampleRefin refin).sampleLines x).drivePins refin x).settleLines

/-- One period of CCLK with the inputs as they stand. -/
def State.nextCount (s : State) : State := s.beginCount s.refinIn s.lineIn

/-- An event taken in the count in progress where it waits there; else in the next count where that raises it; else the
event does not occur and nothing changes (log 2, log 3). -/
def State.takeOrNext (waits : State → Bool) (takeEvent : State → State) (s : State) : State :=
  if waits s then takeEvent s
  else if waits s.nextCount then takeEvent s.nextCount
  else s

/-- A frame boundary event waits in the count in progress. -/
def State.boundaryWaits (s : State) : Bool := s.count.raised && decide (s.count.move ≠ .backward)

/-- The count in progress marked as used by the port. -/
def State.useCount (p : PortId) (s : State) : State := s.modPort p fun q => { q with lastEdge := some s.count.serial }

/-- The link events of a port take counts of their own (R135, R144): where none has begun, or the port has used this one,
the next count begins (log 4). The count is marked as used by the port. -/
def State.linkCount (p : PortId) (s : State) : State :=
  if s.handles p then
    (if s.count.running && decide ((s.port p).lastEdge ≠ some s.count.serial) then s else s.nextCount).useCount p
  else s

end Sys2Proof.Machine
end

