-- ==== Sys2Proof/Machine/Session.lean ====
section
/-! DEFINITION. Sessions (7.6): opening, the end of a session at every block, port reset and part reset; and the requests
the port link and the time base answer themselves. -/

namespace Sys2Proof.Machine

/-! ### The end of a session (R150, R152, R167, R69, R70, R91, R129, R130) -/

/-- The port link's part: deferred requests dropped, responses removed, a chosen one of a transaction under way included,
CLOSED (R152). -/
def Port.ended (q : Port) : Port := { q with isOpen := false, responses := [], deferred := [], chosen := none }

/-- A session end by CLOSE or PRST_n: the port link and the queue first, so that nothing of the same event is posted to the
ending session (R68, R168); then the lines with the schedule, the journal and the plan unit (log 12). -/
def State.endSession (p : PortId) (s : State) : State :=
  ((((s.modPort p Port.ended).modQueue p NoteQueue.cleared).linesSessionEnd p).journalSessionEnd p).planSessionEnd p

/-! ### OPEN and CLOSE (R149, R150) -/

/-- An accepted OPEN: session open with the next session number, enable set and subscription set taken. -/
def State.acceptOpen (p : PortId) (enable : BitVec 16) (x : LineSet) (s : State) : State :=
  ((s.modPort p fun q => { q with isOpen := true, session := q.session + 1 }).modQueue p fun q =>
    { q with enable := enable.extractLsb' 0 8 }).setSubs p x

/-- OPEN as the port link takes it (R149). Every answer carries the session number and the end of the count (9.4). -/
def State.openSession (p : PortId) (id : Byte) (enable : BitVec 16) (x : LineSet) (s : State) : State :=
  if s.isOpen p then s.respond p kindOpen id .alreadyOpen (s.openReport p)
  else if enable.extractLsb' 8 8 ≠ 0 then s.respond p kindOpen id .badValue (s.openReport p)
  else (s.acceptOpen p enable x).respond p kindOpen id .ok ((s.acceptOpen p enable x).openReport p)

/-- CLOSE on an open port (R150): the session ends, and the answer is the only response queued. -/
def State.closeSession (p : PortId) (id : Byte) (s : State) : State :=
  (s.endSession p).respond p kindClose id .ok (.closed (s.port p).session)

/-! ### STATUS_READ, TIME_READ, unknown kinds (R153, R16, R144) -/

def State.statusRead (p : PortId) (id : Byte) (s : State) : State :=
  s.respond p kindStatusRead id .ok (.status (s.statusReport p))

def State.timeRead (p : PortId) (id : Byte) (s : State) : State := s.respond p kindTimeRead id .ok (.time s.timeSnapshot)

def State.unknownKind (p : PortId) (kind id : Byte) (s : State) : State := s.respond p kind id .unknownKind .empty

/-! ### Port reset (R151) -/

/-- The port link entering port reset: queue and deferred list empty, flags clear, the transaction abandoned. -/
def Port.reset (q : Port) : Port :=
  { q with
    isOpen := false, responses := [], deferred := [], overrun := false, badFrame := false, chosen := none, prstLow := true }

/-- PRST_n first sampled low. While RESET_N is low it makes no difference but to the pin (R151). -/
def State.prstAssert (p : PortId) (s : State) : State :=
  if s.resetLow then s.modPort p fun q => { q with prstLow := true }
  else if (s.port p).prstLow then s
  else ((if s.isOpen p then s.endSession p else s).modPort p Port.reset)

/-- PRST_n first sampled high: the port is CLOSED, empty and with clear flags. A transaction under way at the release was
never chosen for, so it is ignored to its end; the count of the release is marked as used, since the first transaction
handled is one whose fall is sampled after it (R151). While RESET_N is low no count passes and only the pin changes. -/
def State.prstRelease (p : PortId) (s : State) : State :=
  if (s.port p).prstLow && !s.resetLow then (s.modPort p fun q => { q with prstLow := false }).useCount p
  else s.modPort p fun q => { q with prstLow := false }

/-! ### Part reset (R134, R1) -/

/-- RESET_N low: every block at its reset values, with the straps as sampled; the pins the outside drives keep their levels,
and the queue of commands is the model's own. -/
def State.resetAssert (st : Straps) (s : State) : State :=
  { State.powerOn true st with
    pending := s.pending
    refinIn := s.refinIn
    lineIn := s.lineIn
    ports := mapVector (fun q => powerOnPort q.prstLow q.csLow) s.ports }

/-- RESET_N rises: the blocks keep their reset values until counts and requests change them (R1, R134). -/
def State.resetRelease (s : State) : State := { s with resetLow := false }

end Sys2Proof.Machine
end

