-- ==== Sys2Proof/Machine/Link.lean ====
section
/-! DEFINITION. The request link (7.2, 7.3): the gate of every request kind, the choice of a response at a fall of CS_n, and
the settlement and taking at a rise. -/

namespace Sys2Proof.Machine

/-! ### Every request kind through the gate (R142 to R144) -/

/-- NONE is taken, asks for nothing, and is not checked against the limit (R142). -/
def State.takeNone (_p : PortId) (_id : Byte) (s : State) : State := s
def State.takeUnknownKind (p : PortId) (kind id : Byte) (_body : List Byte) (s : State) : State :=
  s.take p kind id false (State.unknownKind p kind id)
def State.takeOpen (p : PortId) (id : Byte) (enable : BitVec 16) (x : LineSet) (s : State) : State :=
  s.take p kindOpen id false (State.openSession p id enable x)
def State.takeClose (p : PortId) (id : Byte) (s : State) : State := s.take p kindClose id true (State.closeSession p id)
def State.takeStatusRead (p : PortId) (id : Byte) (s : State) : State :=
  s.take p kindStatusRead id false (State.statusRead p id)
def State.takeTimeRead (p : PortId) (id : Byte) (s : State) : State := s.take p kindTimeRead id true (State.timeRead p id)
def State.takeActionPost (p : PortId) (id line kind : Byte) (width : Phase) (due : TimeCount) (late sync notify : Byte)
    (tag : BitVec 16) (s : State) : State :=
  s.take p kindActionPost id true (State.actionPost p id line kind width due late sync notify tag)
def State.takeActionCancel (p : PortId) (id selector : Byte) (argument : BitVec 32) (s : State) : State :=
  s.take p kindActionCancel id true (State.actionCancel p id selector argument)
def State.takeActionQuery (p : PortId) (id : Byte) (number : BitVec 32) (s : State) : State :=
  s.take p kindActionQuery id true (State.actionQuery p id number)
def State.takeLineClaim (p : PortId) (id line : Byte) (s : State) : State :=
  s.take p kindLineClaim id true (State.lineClaim p id line)
def State.takeLineRelease (p : PortId) (id line : Byte) (s : State) : State :=
  s.take p kindLineRelease id true (State.lineRelease p id line)
def State.takeLineConfig (p : PortId) (id line mode safe retain edge initial : Byte) (s : State) : State :=
  s.take p kindLineConfig id true (State.lineConfig p id line mode safe retain edge initial)
def State.takeLineDrive (p : PortId) (id line level : Byte) (s : State) : State :=
  s.take p kindLineDrive id true (State.lineDrive p id line level)
def State.takeLineQuery (p : PortId) (id line : Byte) (s : State) : State :=
  s.take p kindLineQuery id true (State.lineQuery p id line)
def State.takeCycleStage (p : PortId) (id line : Byte) (rise fall : Phase) (force : Byte) (s : State) : State :=
  s.take p kindCycleStage id true (State.cycleStage p id line rise fall force)
def State.takeSubscribe (p : PortId) (id : Byte) (x : LineSet) (s : State) : State :=
  s.take p kindSubscribe id true (State.subscribeTo p id x)
def State.takeJournalRead (p : PortId) (id maximum : Byte) (s : State) : State :=
  s.take p kindJournalRead id true (State.journalRead p id maximum)
def State.takeNoteRead (p : PortId) (id : Byte) (s : State) : State := s.take p kindNoteRead id true (State.noteRead p id)
def State.takeNoteAck (p : PortId) (id : Byte) (n : BitVec 16) (s : State) : State :=
  s.take p kindNoteAck id true (State.noteAck p id n)
def State.takePlanPropose (p : PortId) (id : Byte) (f : PlanFields) (s : State) : State :=
  s.take p kindPlanPropose id true (State.planPropose p id f)
def State.takePlanVote (p : PortId) (id : Byte) (n : BitVec 16) (decision : Byte) (s : State) : State :=
  s.take p kindPlanVote id true (State.planVote p id n decision)
def State.takePlanWithdraw (p : PortId) (id : Byte) (s : State) : State :=
  s.take p kindPlanWithdraw id true (State.planWithdraw p id)
def State.takePlanRead (p : PortId) (id : Byte) (s : State) : State := s.take p kindPlanRead id true (State.planRead p id)

/-- The request that a message asks for, taken. A command that is no request is no message (`requestOf` gives none). -/
def State.serve (i : Instr) (s : State) : State :=
  match i with
  | .noneRequest p id => s.takeNone p id
  | .unknownKind p kind id body => s.takeUnknownKind p kind id body
  | .openSession p id enable x => s.takeOpen p id enable x
  | .closeSession p id => s.takeClose p id
  | .statusRead p id => s.takeStatusRead p id
  | .timeRead p id => s.takeTimeRead p id
  | .actionPost p id line kind width due late sync notify tag => s.takeActionPost p id line kind width due late sync notify tag
  | .actionCancel p id selector argument => s.takeActionCancel p id selector argument
  | .actionQuery p id number => s.takeActionQuery p id number
  | .lineClaim p id line => s.takeLineClaim p id line
  | .lineRelease p id line => s.takeLineRelease p id line
  | .lineConfig p id line mode safe retain edge initial => s.takeLineConfig p id line mode safe retain edge initial
  | .lineDrive p id line level => s.takeLineDrive p id line level
  | .lineQuery p id line => s.takeLineQuery p id line
  | .cycleStage p id line rise fall force => s.takeCycleStage p id line rise fall force
  | .subscribe p id x => s.takeSubscribe p id x
  | .journalRead p id maximum => s.takeJournalRead p id maximum
  | .noteRead p id => s.takeNoteRead p id
  | .noteAck p id n => s.takeNoteAck p id n
  | .planPropose p id f => s.takePlanPropose p id f
  | .planVote p id n decision => s.takePlanVote p id n decision
  | .planWithdraw p id => s.takePlanWithdraw p id
  | .planRead p id => s.takePlanRead p id
  | .resetNAssert _ | .resetNRelease | .prstAssert _ | .prstRelease _ | .cclkCount _ _ | .frameBoundaryEvent
  | .holdoverLimitExpiry | .voteWindowExpiry | .refinEdge | .backwardStep | .forwardStep | .actionDue
  | .pulseTrailingEdge | .lineLevelChange _ _ | .responseChoice _ | .transactionEnd _ _ => s

/-! ### The fall of CS_n (R136) -/

/-- The response chosen now becomes the chosen response of the transaction that begins (R136). -/
def State.putOut (p : PortId) (s : State) : State :=
  s.modPort p fun q => { q with csLow := true, chosen := some (s.choose p) }

/-- The fall of CS_n: in a handled port the response is chosen; else the fall is ignored and the transaction with it. -/
def State.selectFalls (p : PortId) (s : State) : State :=
  if (s.port p).csLow then s
  else if s.handles p then (s.linkCount p).putOut p
  else s.modPort p fun q => { q with csLow := true }

/-! ### The rise of CS_n (R138 to R141) -/

/-- The bits MISO_n carries while `n` bits are clocked, first bit first: the bytes of the chosen response and then 0xFF, each
most significant bit first (R135). -/
def misoBits (c : Chosen) (n : Nat) : List Bool := (List.range n).map c.bitAt

/-- The settlement of the transfer (R139, R147): a full one removes a queued response and clears the flags its header
carried; a short one changes nothing. -/
def Port.settleTransfer (c : Chosen) (n : Nat) (q : Port) : Port :=
  if c.bytes.length ≤ n then
    { q with
      responses := if c.empty then q.responses else q.responses.tail
      overrun := q.overrun && !c.overrun
      badFrame := q.badFrame && !c.badFrame }
  else q

/-- Step 1 of a rise of CS_n after the MOSI bits of a transaction (R138): the transfer settled by its complete bytes, with the
bits MISO_n carried against them kept, one for each (R135). The chosen response becomes none here: step 2 does not read it. -/
def Port.finish (c : Chosen) (mosi : List Bool) (q : Port) : Port :=
  { q.settleTransfer c (bytesOfBits mosi).length with
    csLow := false
    chosen := none
    misoSent := misoBits c mosi.length }

/-- The bytes received examined (R140, R141): none at all carry no request; a request that fails framing is discarded with
BAD_FRAME; one that passes is taken. -/
def State.receive (p : PortId) (bytes : List Byte) (s : State) : State :=
  if bytes.isEmpty then s
  else match parseFrame p bytes with
    | none => s.modPort p fun q => { q with badFrame := true }
    | some i => s.serve i

/-- The rise of CS_n: settlement, then the request (R138). A transaction whose fall was not handled is ignored; in a port that
handles transactions its rise is still sampled in a count before that of the next fall (R135). -/
def State.selectRises (p : PortId) (mosi : List Bool) (s : State) : State :=
  if !(s.port p).csLow then s
  else match (s.port p).chosen with
    | none => (s.linkCount p).modPort p fun q => { q with csLow := false }
    | some c =>
      ((s.linkCount p).modPort p (Port.finish c mosi)).receive p (bytesOfBits mosi)

end Sys2Proof.Machine
end

