-- ==== Sys2Proof/Machine/CountCommands.lean ====
section
/-! DEFINITION. The meanings of the reset, count, event and input commands. Every command ends with `State.settle`, which
brings the pins and the reports of the count to where the count stands. -/

namespace Sys2Proof.Machine

/-- What every command answers: the next state, settled. The spec gives no command a stop (log 23). -/
def answer (s : State) : Host.Outcome State Fault Refusal := .next s.settle

/-! ### Reset (R134, R1, R151) -/

/-- RESET_N_ASSERT (R134). -/
def execResetNAssert (st : Straps) (s : State) : Host.Outcome State Fault Refusal := answer (s.resetAssert st)
/-- RESET_N_RELEASE (R1). -/
def execResetNRelease (s : State) : Host.Outcome State Fault Refusal := answer s.resetRelease
/-- PRST_ASSERT (R151). -/
def execPrstAssert (p : PortId) (s : State) : Host.Outcome State Fault Refusal := answer (s.prstAssert p)
/-- PRST_RELEASE (R151). -/
def execPrstRelease (p : PortId) (s : State) : Host.Outcome State Fault Refusal := answer (s.prstRelease p)

/-! ### Counts and their events -/

/-- CCLK_COUNT (R2): the count in progress ends and the next one begins. -/
def execCclkCount (refin : Level) (x : LineSet) (s : State) : Host.Outcome State Fault Refusal := answer (s.beginCount refin x)

/-- FRAME_BOUNDARY_EVENT (R5). -/
def execFrameBoundaryEvent (s : State) : Host.Outcome State Fault Refusal :=
  answer (s.takeOrNext State.boundaryWaits State.takeFrameEvent)

/-- HOLDOVER_LIMIT_EXPIRY (R105): the frame boundary event at which the holdover limit expires. -/
def execHoldoverLimitExpiry (s : State) : Host.Outcome State Fault Refusal :=
  answer (s.takeOrNext (fun t => t.boundaryWaits && t.holdoverExpires) State.takeFrameEvent)

/-- VOTE_WINDOW_EXPIRY (R125): the frame boundary event at which a proposal's vote window falls to 0. -/
def execVoteWindowExpiry (s : State) : Host.Outcome State Fault Refusal :=
  answer (s.takeOrNext (fun t => t.boundaryWaits && t.voteExpires) State.takeFrameEvent)

/-- A restart of a backward step waits in the count. -/
def State.backwardWaits (s : State) : Bool := s.count.raised && decide (s.count.move = .backward)

/-- BACKWARD_STEP (R10). -/
def execBackwardStep (s : State) : Host.Outcome State Fault Refusal :=
  answer (s.takeOrNext State.backwardWaits State.takeFrameEvent)

/-- A move that is a forward step. -/
def Move.isForward : Move → Bool
  | .forward _ => true
  | .ordinary => false
  | .insertion => false
  | .deletion => false
  | .backward => false

/-- The boundary event of a forward step waits in the count. -/
def State.forwardWaits (s : State) : Bool := s.count.raised && s.count.move.isForward

/-- FORWARD_STEP (R11): the boundary event with the step's SYNC_CHANGE at its end, then the jumped entries and those at T_new
(R38, R39); the place of the SYNC_CHANGE is the model's choice (R162, log 12). -/
def execForwardStep (s : State) : Host.Outcome State Fault Refusal :=
  answer (s.takeOrNext State.forwardWaits fun t => t.takeFrameEvent.resolveAll)

/-- ACTION_DUE (R33). -/
def execActionDue (s : State) : Host.Outcome State Fault Refusal :=
  answer (s.takeOrNext State.pendingDue State.resolvePending)

/-- PULSE_TRAILING_EDGE (R36). -/
def execPulseTrailingEdge (s : State) : Host.Outcome State Fault Refusal :=
  answer (s.takeOrNext State.pulseDue fun t => resolveToPulse t.resolveFuel t)

/-! ### Input edges (R95, R66) -/

/-- REFIN_EDGE (R95): the edge recognised in the count in progress; where none waits there, REFIN is high in the next count,
and the edge that count recognises is taken (log 15). -/
def execRefinEdge (s : State) : Host.Outcome State Fault Refusal :=
  answer (if s.count.refinEdge then s.takeRefin else (s.beginCount .high s.lineIn).takeRefin)

/-- A line's bit in a line set made high or low. -/
def setLine (x : LineSet) (k : LineId) (v : Level) : LineSet :=
  match v with
  | .high => x ||| ((1#16) <<< k.val)
  | .low => x &&& ~~~((1#16) <<< k.val)

/-- The edge that leads to a level. -/
def edgeTo : Level → Edge
  | .high => .rise
  | .low => .fall

/-- A level change taken where it waits. -/
def State.takeChangeIf (x : LineId × Edge) (s : State) : State :=
  if s.count.changes.contains x then s.takeChangesTo x.1 else s

/-- LINE_LEVEL_CHANGE (R66): the change recognised in the count in progress; where it does not wait there, the line's pin
has the level in the next count, and what that count recognises on the line is taken (log 15). -/
def execLineLevelChange (k : LineId) (v : Level) (s : State) : Host.Outcome State Fault Refusal :=
  answer (if s.count.changes.contains (k, edgeTo v) then s.takeChangesTo k
    else (s.beginCount s.refinIn (setLine s.lineIn k v)).takeChangeIf (k, edgeTo v))

/-! ### Select edges (R136, R138) -/

/-- RESPONSE_CHOICE (R136). -/
def execResponseChoice (p : PortId) (s : State) : Host.Outcome State Fault Refusal := answer (s.selectFalls p)
/-- TRANSACTION_END (R138). -/
def execTransactionEnd (p : PortId) (mosi : List Bool) (s : State) : Host.Outcome State Fault Refusal :=
  answer (s.selectRises p mosi)

end Sys2Proof.Machine
end

