-- ==== Sys2Proof/Machine/RequestCommands.lean ====
section
/-! DEFINITION. The meanings of the request commands: the request is taken at a rise of CS_n of its port, in a count of the
port's own (log 4, log 24), passes the gate of the link, and is handled by its block. -/

namespace Sys2Proof.Machine

/-! ### Port sessions and the time base -/

/-- NONE (R142). -/
def execNone (p : PortId) (id : Byte) (s : State) : Host.Outcome State Fault Refusal := answer ((s.linkCount p).takeNone p id)
/-- UNKNOWN_KIND (R144). -/
def execUnknownKind (p : PortId) (kind id : Byte) (body : List Byte) (s : State) : Host.Outcome State Fault Refusal :=
  answer ((s.linkCount p).takeUnknownKind p kind id body)
/-- OPEN (R149). -/
def execOpen (p : PortId) (id : Byte) (enable : BitVec 16) (x : LineSet) (s : State) : Host.Outcome State Fault Refusal :=
  answer ((s.linkCount p).takeOpen p id enable x)
/-- CLOSE (R150). -/
def execClose (p : PortId) (id : Byte) (s : State) : Host.Outcome State Fault Refusal := answer ((s.linkCount p).takeClose p id)
/-- STATUS_READ (R153). -/
def execStatusRead (p : PortId) (id : Byte) (s : State) : Host.Outcome State Fault Refusal :=
  answer ((s.linkCount p).takeStatusRead p id)
/-- TIME_READ (R16). -/
def execTimeRead (p : PortId) (id : Byte) (s : State) : Host.Outcome State Fault Refusal :=
  answer ((s.linkCount p).takeTimeRead p id)

/-! ### The schedule -/

/-- ACTION_POST (R24). -/
def execActionPost (p : PortId) (id line kind : Byte) (width : Phase) (due : TimeCount) (late sync notify : Byte)
    (tag : BitVec 16) (s : State) : Host.Outcome State Fault Refusal :=
  answer ((s.linkCount p).takeActionPost p id line kind width due late sync notify tag)
/-- ACTION_CANCEL (R41). -/
def execActionCancel (p : PortId) (id selector : Byte) (argument : BitVec 32) (s : State) : Host.Outcome State Fault Refusal :=
  answer ((s.linkCount p).takeActionCancel p id selector argument)
/-- ACTION_QUERY (R44). -/
def execActionQuery (p : PortId) (id : Byte) (number : BitVec 32) (s : State) : Host.Outcome State Fault Refusal :=
  answer ((s.linkCount p).takeActionQuery p id number)

/-! ### The line table -/

/-- LINE_CLAIM (R53). -/
def execLineClaim (p : PortId) (id line : Byte) (s : State) : Host.Outcome State Fault Refusal :=
  answer ((s.linkCount p).takeLineClaim p id line)
/-- LINE_RELEASE (R55). -/
def execLineRelease (p : PortId) (id line : Byte) (s : State) : Host.Outcome State Fault Refusal :=
  answer ((s.linkCount p).takeLineRelease p id line)
/-- LINE_CONFIG (R56). -/
def execLineConfig (p : PortId) (id line mode safe retain edge initial : Byte) (s : State) : Host.Outcome State Fault Refusal :=
  answer ((s.linkCount p).takeLineConfig p id line mode safe retain edge initial)
/-- LINE_DRIVE (R59). -/
def execLineDrive (p : PortId) (id line level : Byte) (s : State) : Host.Outcome State Fault Refusal :=
  answer ((s.linkCount p).takeLineDrive p id line level)
/-- LINE_QUERY (R72). -/
def execLineQuery (p : PortId) (id line : Byte) (s : State) : Host.Outcome State Fault Refusal :=
  answer ((s.linkCount p).takeLineQuery p id line)
/-- CYCLE_STAGE (R63). -/
def execCycleStage (p : PortId) (id line : Byte) (rise fall : Phase) (force : Byte) (s : State) :
    Host.Outcome State Fault Refusal :=
  answer ((s.linkCount p).takeCycleStage p id line rise fall force)

/-! ### The journal and the notification queue -/

/-- SUBSCRIBE (R86). -/
def execSubscribe (p : PortId) (id : Byte) (x : LineSet) (s : State) : Host.Outcome State Fault Refusal :=
  answer ((s.linkCount p).takeSubscribe p id x)
/-- JOURNAL_READ (R88). -/
def execJournalRead (p : PortId) (id maximum : Byte) (s : State) : Host.Outcome State Fault Refusal :=
  answer ((s.linkCount p).takeJournalRead p id maximum)
/-- NOTE_READ (R163). -/
def execNoteRead (p : PortId) (id : Byte) (s : State) : Host.Outcome State Fault Refusal :=
  answer ((s.linkCount p).takeNoteRead p id)
/-- NOTE_ACK (R164). -/
def execNoteAck (p : PortId) (id : Byte) (n : BitVec 16) (s : State) : Host.Outcome State Fault Refusal :=
  answer ((s.linkCount p).takeNoteAck p id n)

/-! ### The plan unit -/

/-- PLAN_PROPOSE (R118). -/
def execPlanPropose (p : PortId) (id : Byte) (f : PlanFields) (s : State) : Host.Outcome State Fault Refusal :=
  answer ((s.linkCount p).takePlanPropose p id f)
/-- PLAN_VOTE (R121). -/
def execPlanVote (p : PortId) (id : Byte) (n : BitVec 16) (decision : Byte) (s : State) : Host.Outcome State Fault Refusal :=
  answer ((s.linkCount p).takePlanVote p id n decision)
/-- PLAN_WITHDRAW (R124). -/
def execPlanWithdraw (p : PortId) (id : Byte) (s : State) : Host.Outcome State Fault Refusal :=
  answer ((s.linkCount p).takePlanWithdraw p id)
/-- PLAN_READ (R132). -/
def execPlanRead (p : PortId) (id : Byte) (s : State) : Host.Outcome State Fault Refusal :=
  answer ((s.linkCount p).takePlanRead p id)

end Sys2Proof.Machine
end

