-- ==== Sys2Proof/Machine/Dispatch.lean ====
section
/-! DEFINITION. One arm for each command: its meaning. -/

namespace Sys2Proof.Machine

def exec (i : Instr) (s : State) : Host.Outcome State Fault Refusal :=
  match i with
  | .resetNAssert st => Sys2Proof.Machine.execResetNAssert st s
  | .resetNRelease => Sys2Proof.Machine.execResetNRelease s
  | .prstAssert p => Sys2Proof.Machine.execPrstAssert p s
  | .prstRelease p => Sys2Proof.Machine.execPrstRelease p s
  | .cclkCount refin x => Sys2Proof.Machine.execCclkCount refin x s
  | .frameBoundaryEvent => Sys2Proof.Machine.execFrameBoundaryEvent s
  | .holdoverLimitExpiry => Sys2Proof.Machine.execHoldoverLimitExpiry s
  | .voteWindowExpiry => Sys2Proof.Machine.execVoteWindowExpiry s
  | .refinEdge => Sys2Proof.Machine.execRefinEdge s
  | .backwardStep => Sys2Proof.Machine.execBackwardStep s
  | .forwardStep => Sys2Proof.Machine.execForwardStep s
  | .actionDue => Sys2Proof.Machine.execActionDue s
  | .pulseTrailingEdge => Sys2Proof.Machine.execPulseTrailingEdge s
  | .lineLevelChange k v => Sys2Proof.Machine.execLineLevelChange k v s
  | .responseChoice p => Sys2Proof.Machine.execResponseChoice p s
  | .transactionEnd p mosi => Sys2Proof.Machine.execTransactionEnd p mosi s
  | .noneRequest p id => Sys2Proof.Machine.execNone p id s
  | .unknownKind p kind id body => Sys2Proof.Machine.execUnknownKind p kind id body s
  | .openSession p id enable x => Sys2Proof.Machine.execOpen p id enable x s
  | .closeSession p id => Sys2Proof.Machine.execClose p id s
  | .statusRead p id => Sys2Proof.Machine.execStatusRead p id s
  | .timeRead p id => Sys2Proof.Machine.execTimeRead p id s
  | .actionPost p id line kind width due late sync notify tag => Sys2Proof.Machine.execActionPost p id line kind width due late sync notify tag s
  | .actionCancel p id selector argument => Sys2Proof.Machine.execActionCancel p id selector argument s
  | .actionQuery p id number => Sys2Proof.Machine.execActionQuery p id number s
  | .lineClaim p id line => Sys2Proof.Machine.execLineClaim p id line s
  | .lineRelease p id line => Sys2Proof.Machine.execLineRelease p id line s
  | .lineConfig p id line mode safe retain edge initial => Sys2Proof.Machine.execLineConfig p id line mode safe retain edge initial s
  | .lineDrive p id line level => Sys2Proof.Machine.execLineDrive p id line level s
  | .lineQuery p id line => Sys2Proof.Machine.execLineQuery p id line s
  | .cycleStage p id line rise fall force => Sys2Proof.Machine.execCycleStage p id line rise fall force s
  | .subscribe p id x => Sys2Proof.Machine.execSubscribe p id x s
  | .journalRead p id maximum => Sys2Proof.Machine.execJournalRead p id maximum s
  | .noteRead p id => Sys2Proof.Machine.execNoteRead p id s
  | .noteAck p id n => Sys2Proof.Machine.execNoteAck p id n s
  | .planPropose p id f => Sys2Proof.Machine.execPlanPropose p id f s
  | .planVote p id n decision => Sys2Proof.Machine.execPlanVote p id n decision s
  | .planWithdraw p id => Sys2Proof.Machine.execPlanWithdraw p id s
  | .planRead p id => Sys2Proof.Machine.execPlanRead p id s

end Sys2Proof.Machine
end

