-- ==== Sys2Proof/Safety.lean ====
section
/-! DEFINITION. The terms in which claims about the block are made: completion, a settled state, a port that can take a
request, and the state after an answer. -/

namespace Sys2Proof.Machine

/-- A command completes: it answers a next state, neither a fault nor a refusal. -/
def completes (c : Instr) (s : State) : Prop := ∃ t, exec c s = .next t

/-- A step is safe: it answers a next state. -/
def stepSafe (s : State) : Prop := ∃ t, step s = .next t

/-- The pins, the cyclic levels and the reports of the count stand as the end of the count shows them, as they do after
every command (R51, R61, R74, R112, R166). -/
abbrev State.settled (s : State) : Prop := s.settle = s

/-- The link of the port can handle an edge of CS_n in the count in progress: neither reset is low, a count has begun, and
the port has handled no select edge in it (R135). -/
abbrev State.linkFree (s : State) (p : PortId) : Prop :=
  s.handles p = true ∧ s.count.running = true ∧ (s.port p).lastEdge ≠ some s.count.serial

/-- The link of the port can take a request in the count in progress: it is free, and the pending count is below the limit
(R143). -/
abbrev State.canTake (s : State) (p : PortId) : Prop :=
  s.handles p = true ∧ s.count.running = true ∧ (s.port p).lastEdge ≠ some s.count.serial ∧
    s.pendingCount p < Config.pendingLimit

/-- The port can take a request, has a session, and the state is settled. -/
abbrev State.serving (s : State) (p : PortId) : Prop := s.canTake p ∧ s.isOpen p = true ∧ s.settled

/-- The count in progress marked as used by the port's link. -/
abbrev State.marked (p : PortId) (s : State) : State := s.useCount p

/-- The state with one answer more at the tail of the port's response queue, made in a count so marked. -/
def State.answered (p : PortId) (kind id : Byte) (result : Result) (body : Body) (s : State) : State :=
  s.modPort p fun q =>
    { q with
      lastEdge := some s.count.serial
      responses := q.responses ++ [⟨kind, id, result, body, s.count.serial⟩] }

/-- MISO_n of the port is not driven (R134, R135, R151). -/
abbrev State.misoUndriven (s : State) (p : PortId) : Prop := ∀ n, s.miso p n = none ∧ s.misoBit p n = none

/-- Every block holds the values of its After RESET_N column for the straps `st` (1.1, 2.1, 3.1, 4.1, 5.1, 6.1, 7.1, 8.1),
and the output pins follow them (R50, R155). -/
def State.atResetValues (st : Straps) (s : State) : Prop :=
  s.straps = st ∧
  s.time.t = 0 ∧ s.time.frame = 0 ∧ s.time.phase = 0 ∧ s.time.epoch = 0 ∧ s.time.run = .closed ∧ s.time.performed = 0 ∧
  s.time.len = (if st.planSel1 then (if st.planSel0 then 1000000 else 125000) else if st.planSel0 then 50000 else 100000) ∧
  s.sync.state = (if st.refEn then .acquire else .free) ∧ s.sync.lastE = 0 ∧ s.sync.c = 0 ∧ s.sync.alignedRun = 0 ∧
  s.sync.missedRun = 0 ∧ s.sync.holdoverCount = 0 ∧ s.sync.strayCount = 0 ∧ s.sync.measured = false ∧
  s.sync.refinLast = none ∧ s.sync.stepOrder = none ∧
  s.schedule.entries = [] ∧ s.schedule.counter = 1 ∧
  (∀ k, (s.line k).mode = .off ∧ (s.line k).owner = none ∧ (s.line k).retain = false ∧ (s.line k).safe = .highz ∧
    (s.line k).edge = .rise ∧ (s.line k).initial = .low ∧ (s.line k).driven = none ∧ (s.line k).last = none ∧
    (s.line k).active = none ∧ (s.line k).staged = none ∧ s.outputs.linePins[k] = .highz) ∧
  s.journal.records = [] ∧ s.journal.counter = 1 ∧ (∀ p, s.subs p = 0 ∧ s.missed p = 0) ∧
  s.plan.record = ⟨s.time.len, st.refEn, 1000, 8, .allowStep, 0, 64, 32⟩ ∧ s.plan.number = 0 ∧ s.plan.proposal = none ∧
  s.plan.counter = 1 ∧
  (∀ p, (s.port p).isOpen = false ∧ (s.port p).session = 0 ∧ (s.port p).responses = [] ∧ (s.port p).deferred = [] ∧
    (s.port p).overrun = false ∧ (s.port p).badFrame = false ∧ (s.port p).chosen = none) ∧
  (∀ p, (s.queue p).entries = [] ∧ (s.queue p).overflow = none ∧ (s.queue p).counter = 1 ∧ (s.queue p).enable = 0 ∧
    s.outputs.attn[p] = .high)

/-- An advance of the time base by `a` counts, from `u` to `t` (R2): T and the phase increase by `a`; when the increased
phase reaches L, L is subtracted, the frame number increases and a frame boundary event is raised. -/
def State.advancedBy (a : Nat) (u t : State) : Prop :=
  t.time.t = u.time.t + BitVec.ofNat 48 a ∧ t.time.len = u.time.len ∧ t.time.epoch = u.time.epoch ∧
  (if u.time.len.toNat ≤ u.time.phase.toNat + a then
    t.time.phase = BitVec.ofNat 24 (u.time.phase.toNat + a - u.time.len.toNat) ∧ t.time.frame = u.time.frame + 1 ∧
      t.count.raised = true
  else t.time.phase = BitVec.ofNat 24 (u.time.phase.toNat + a) ∧ t.time.frame = u.time.frame ∧ t.count.raised = false)

/-- The command takes the frame boundary event that waits in the count in progress: FRAME_BOUNDARY_EVENT in any count that
raised one (R5), FORWARD_STEP in a forward step's count (R11). -/
def State.boundaryTakenBy (s : State) (c : Instr) : Prop :=
  (c = .frameBoundaryEvent ∧ s.boundaryWaits = true) ∨ (c = .forwardStep ∧ s.forwardWaits = true)

/-- The command ends the session of port `p`: a CLOSE the port can take, or PRST_n falling on an open port (R150, R151). -/
def State.endsSession (s : State) (p : PortId) (c : Instr) : Prop :=
  (∃ id, c = .closeSession p id ∧ s.serving p) ∨
    (c = .prstAssert p ∧ s.handles p = true ∧ s.isOpen p = true ∧ s.settled)

/-- A line that a session end of `p` retains (R69). -/
abbrev State.retainedFor (s : State) (p : PortId) (k : LineId) : Prop :=
  (s.line k).owner = some p ∧ (s.line k).retain = true ∧ (s.line k).mode ≠ .off

/-- A line that a session end of `p` frees (R70). -/
abbrev State.freedFor (s : State) (p : PortId) (k : LineId) : Prop :=
  (s.line k).owner = some p ∧ ¬((s.line k).retain = true ∧ (s.line k).mode ≠ .off)

/-- The port owns the line a request names, and the line is in a mode. -/
abbrev State.ownsIn (s : State) (p : PortId) (line : Byte) (k : LineId) (m : Mode) : Prop :=
  lineOf line = some k ∧ (s.line k).owner = some p ∧ (s.line k).mode = m

/-- The request's line is not one the port owns: it is above 15, or its owner is another (NOT_OWNER). -/
def State.notOwned (s : State) (p : PortId) (line : Byte) : Prop :=
  ∀ k, lineOf line = some k → (s.line k).owner ≠ some p

/-- The owner of an entry, where notify is yes, is posted its ACTION_RESULT (R45), and no other queue changes. -/
def State.resultPosted (s : State) (x : Entry) (out : Outcome) (t : State) : Prop :=
  ∀ p, t.queue p = if x.notify = true ∧ x.owner = some p then
    (s.post p (.actionResult x.number x.tag x.line out s.time.t s.time.epoch)).queue p else s.queue p

/-- The queue of a port after posts made to it one after another. -/
def State.queueAfter (s : State) (p : PortId) (bs : List NoteBody) : NoteQueue :=
  (bs.foldl (fun u b => u.post p b) s).queue p

/-- The notification was posted to the port on the way from `s` to `t`: where the port is open and enables its kind, and the
queue ends with nothing lost, the queue holds it (R158). -/
def State.noted (s t : State) (p : PortId) (b : NoteBody) : Prop :=
  s.isOpen p = true → (s.queue p).enable.getLsbD b.kind.bit = true → (t.queue p).overflow = none →
    ∃ n ∈ (t.queue p).entries, n.body = b

/-- The HELD check passes: sync class ANY, or the sync state LOCKED or HOLDOVER (R32). -/
abbrev heldAllows (cls : SyncClass) (st : SyncState) : Prop := cls = .any ∨ st = .locked ∨ st = .holdover

/-- The level a leading action hands on a line (R31). -/
def State.leadingLevel (s : State) (k : LineId) : ActionKind → Option Level
  | .set => some .high
  | .clear => some .low
  | .toggle => some (if (s.line k).driven = some .high then .low else .high)
  | .pulseHigh => some .high
  | .pulseLow => some .low

/-- The level a trailing action hands (R31). -/
def trailingLevel : ActionKind → Option Level
  | .pulseHigh => some .low
  | .pulseLow => some .high
  | .set => none
  | .clear => none
  | .toggle => none

/-- A line with another driven level. -/
def Line.drivenAt (v : Option Level) (l : Line) : Line := { l with driven := v }

/-- Line `k` after the trailing action of an entry that is IN_PULSE on it (R31, R42). -/
def Line.trailed (k : LineId) (l : Line) (x : Entry) : Line :=
  if x.line = k ∧ x.pulse.isSome = true ∧ l.mode = .outputEvent ∧ (trailingLevel x.kind).isSome = true then
    l.drivenAt (trailingLevel x.kind)
  else l

/-- The value fields of an ACTION_POST are in range (R25). -/
abbrev postInRange (kind : Byte) (width : Phase) (late sync notify : Byte) : Prop :=
  (((kind = 1 ∨ kind = 2 ∨ kind = 3) ∧ width = 0) ∨ ((kind = 4 ∨ kind = 5) ∧ width ≠ 0)) ∧ (late = 1 ∨ late = 2) ∧
    (sync = 0 ∨ sync = 1) ∧ (notify = 0 ∨ notify = 1)

/-- A time is out of horizon (R15): more than 2^40 counts ahead and more than 2^40 counts behind. -/
abbrev outOfHorizon (now due : TimeCount) : Prop := 2 ^ 40 < (due - now).toNat ∧ 2 ^ 40 < (now - due).toNat

/-- The lists and queues of the part are within their capacities (R22, R76, R143, R155). -/
def State.withinCapacity (s : State) : Prop :=
  s.schedule.entries.length ≤ 128 ∧ s.journal.records.length ≤ 256 ∧
    ∀ p, (s.queue p).entries.length ≤ 15 ∧ s.pendingCount p ≤ 8

/-- Action numbers and capture sequence numbers are distinct and not 0, and the counters stand at a number that is neither 0
nor in use (R19, R75). -/
def State.numbersDistinct (s : State) : Prop :=
  (s.schedule.entries.map (·.number)).Nodup ∧ s.schedule.counter ≠ 0 ∧
    (∀ x ∈ s.schedule.entries, x.number ≠ 0 ∧ x.number ≠ s.schedule.counter) ∧
  (s.journal.records.map (·.sequence)).Nodup ∧ s.journal.counter ≠ 0 ∧
    ∀ r ∈ s.journal.records, r.sequence ≠ 0 ∧ r.sequence ≠ s.journal.counter

/-- The frame is well placed (R6): L in use is the frame length of the plan record and at least 1,000, as is that of a
proposed plan; the phase is below L in use, and at most 1 where a frame event waits. -/
def State.frameInRange (s : State) : Prop :=
  1000 ≤ s.time.len.toNat ∧ s.time.len = s.plan.record.frameLength ∧ s.time.phase.toNat < s.time.len.toNat ∧
    (s.count.raised = true → s.time.phase.toNat ≤ 1) ∧
    ∀ x, s.plan.proposal = some x → 1000 ≤ x.plan.frameLength.toNat

/-- The list of the schedule stands in order (R20, R21): the effective times do not decrease, measured forward from the
reference of the count (log 13); each lies after that reference, and has been reached by T or is ahead of T by at most
2^40 + 2^24 counts less the phase. With it, what keeps it at a step: a standing step order is that of the phase (R96,
R100). -/
def State.listInOrder (s : State) : Prop :=
  s.frameInRange ∧ forward s.count.ref s.time.t < 2 ^ 24 ∧
  (∀ o, s.sync.stepOrder = some o → s.count.raised = false ∧ o.e ≠ 0 ∧ o.e = errorAt s.time.phase s.time.len) ∧
  s.schedule.entries.Pairwise (fun a b => forward s.count.ref a.effective ≤ forward s.count.ref b.effective) ∧
  ∀ x ∈ s.schedule.entries, 0 < forward s.count.ref x.effective ∧
    (forward s.count.ref x.effective ≤ forward s.count.ref s.time.t ∨
      forward s.time.t x.effective + s.time.phase.toNat ≤ 2 ^ 40 + 2 ^ 24)

/-- Entries and lines agree (R23, R52): an entry stands on an OUTPUT_EVENT line and has its line's owner; an orphan notifies
nobody; a line with no owner is OFF or retained; an owner's session is open. -/
def State.ownersAgree (s : State) : Prop :=
  (∀ x ∈ s.schedule.entries, (s.line x.line).mode = .outputEvent ∧ x.owner = (s.line x.line).owner ∧
    (x.owner = none → x.notify = false)) ∧
  ∀ k, ((s.line k).owner = none → (s.line k).mode = .off ∨ (s.line k).retain = true) ∧
    ∀ p, (s.line k).owner = some p → s.isOpen p = true

end Sys2Proof.Machine
end

