-- ==== Sys2Proof/Certificates/Slice0/Obligations.lean ====
section
/-! DEFINITION. The statements for the provers. Each docstring names the rule it rests on. A statement whose title or
docstring names a log entry rests there on a choice of the model. The marks that `answered` and `marked` leave (the count a
port's link has used, the count of an answer) are the model's own everywhere: log 4, log 9, log 18. -/

open Sys2Proof Sys2Proof.Machine

/-! ### Steps -/

/-- A step takes the command at the front of the queue and answers what `exec` answers on the state with the queue's rest; on an
empty queue the block idles (log 5, the model's choice). -/
def Obligations.StepTakesFrontCommand : Prop :=
  (∀ (c : Instr) (rest : List Instr) (s : State), s.pending = c :: rest → step s = exec c { s with pending := rest }) ∧
  ∀ s : State, s.pending = [] → step s = .next s

/-- Every command answers a next state, in which the cyclic levels, the pins, the captures of the count and the reports
stand as the end of the count shows them. -/
def Obligations.EveryCommandAnswersSettledState : Prop :=
  ∀ (c : Instr) (s : State), ∃ t, exec c s = .next t ∧ t.settled

/-- What settling changes, and that it changes nothing else: the driven level of OUTPUT_CYCLE lines, which is the program level
of R61; the quality of captures of the count (R74); the body of a SYNC_CHANGE of the count (R112); of the answers of the
count the snapshots of TIME_READ, STATUS_READ, PLAN_READ and OPEN (R16, R17, R132, R149, R153), and the captures and the
SYNC_CHANGE of the count that a JOURNAL_READ or a NOTE_READ shows; and the output pins by mode (R51) and ATTN_n (R166). -/
def Obligations.SettlingChangesOnlyReportsLevelsAndPins : Prop :=
  ∀ s : State,
    s.settle.pending = s.pending ∧ s.settle.resetLow = s.resetLow ∧ s.settle.straps = s.straps ∧
    s.settle.refinIn = s.refinIn ∧ s.settle.lineIn = s.lineIn ∧ s.settle.time = s.time ∧ s.settle.sync = s.sync ∧
    s.settle.schedule = s.schedule ∧ s.settle.plan = s.plan ∧ s.settle.count = s.count ∧
    (∀ k, (s.line k).mode ≠ .outputCycle ∨ (s.line k).active = none → s.settle.line k = s.line k) ∧
    (∀ k g, (s.line k).mode = .outputCycle → (s.line k).active = some g →
      s.settle.line k = (s.line k).drivenAt (some (
        if g.force = .high then .high
        else if g.force = .low then .low
        else if g.rise.toNat < g.fall.toNat then
          (if g.rise.toNat ≤ s.time.phase.toNat ∧ s.time.phase.toNat < g.fall.toNat then .high else .low)
        else if g.fall.toNat < g.rise.toNat then
          (if g.rise.toNat ≤ s.time.phase.toNat ∨ s.time.phase.toNat < g.fall.toNat then .high else .low)
        else .low))) ∧
    s.settle.journal.counter = s.journal.counter ∧ s.settle.journal.subs = s.journal.subs ∧
    s.settle.journal.missed = s.journal.missed ∧
    s.settle.journal.records =
      s.journal.records.map (fun r => { r with quality := if r.stamp = s.count.serial then s.sync.state else r.quality }) ∧
    (∀ p, s.settle.queue p = { s.queue p with entries := (s.queue p).entries.map fun n =>
      if n.stamp = s.count.serial ∧ n.body.kind = .syncChange then
        { n with body := .syncChange s.sync.state s.time.epoch s.sync.lastE }
      else n }) ∧
    (∀ p, s.settle.port p = { s.port p with responses := (s.port p).responses.map fun r =>
      if r.stamp = s.count.serial then { r with body := r.body.refresh s p } else r }) ∧
    (∀ (p : PortId) (b : Body), b.refresh s p = (match b with
      | .opened _ _ _ _ => .opened p (s.port p).session s.plan.number s.sync.state
      | .status _ => .status
          { sessionMap := s.openPorts, session := (s.port p).session, state := s.sync.state, epoch := s.time.epoch,
            planNumber := s.plan.number, proposal := s.plan.proposal.map (·.state),
            scheduleOccupancy := s.schedule.entries.length, journalOccupancy := s.journal.records.length,
            entryCount := s.schedule.entries.countP (fun x => decide (x.owner = some p)), missed := s.missed p }
      | .time _ => .time ⟨s.time.t, s.time.frame, s.time.phase, s.time.len, s.sync.state, s.time.epoch, s.plan.number,
          s.sync.lastE, s.sync.strayCount⟩
      | .planRead _ => .planRead ⟨s.plan.record, s.plan.number, s.plan.proposal⟩
      | .journal items left => .journal (items.map fun i => match i with
          | .gap n => .gap n
          | .capture r => .capture { r with quality := if r.stamp = s.count.serial then s.sync.state else r.quality }) left
      | .note ⟨.ordinary n, queued, lost⟩ => .note ⟨.ordinary (if n.stamp = s.count.serial ∧ n.body.kind = .syncChange then
          { n with body := .syncChange s.sync.state s.time.epoch s.sync.lastE } else n), queued, lost⟩
      | b => b)) ∧
    (∀ k, s.settle.outputs.linePins[k] = (match (s.line k).mode, (s.settle.line k).driven with
      | .off, _ => (s.line k).safe
      | .input, _ => .highz
      | .outputEvent, some .high => .high
      | .outputEvent, some .low => .low
      | .outputEvent, none => .highz
      | .outputCycle, some .high => .high
      | .outputCycle, some .low => .low
      | .outputCycle, none => .highz)) ∧
    (∀ p, s.settle.outputs.attn[p] = .low ↔ (s.queue p).size ≠ 0)

/-! ### Reset (R1, R18, R50, R73, R93, R114, R134, R155) -/

/-- The state right after reset holds the values of every After RESET_N column, is settled, drives MISO_n on no port, and has
the invariants that every step keeps; the straps low are the model's choice, log 6. -/
def Obligations.ResetStateHoldsResetValues : Prop :=
  State.reset.resetLow = false ∧ State.reset.pending = [] ∧ State.reset.atResetValues ⟨false, false, false⟩ ∧
  State.reset.settled ∧ (∀ p, State.reset.misoUndriven p) ∧ State.reset.withinCapacity ∧ State.reset.numbersDistinct ∧
  State.reset.frameInRange ∧ State.reset.listInOrder ∧ State.reset.ownersAgree

/-- RESET_N low brings every block to its reset values with the straps sampled, and drives MISO_n on no port; the pins the
outside drives and the queue of commands stay. -/
def Obligations.ResetAssertGivesResetValues : Prop :=
  ∀ (st : Straps) (s : State), ∃ t, exec (.resetNAssert st) s = .next t ∧ t.resetLow = true ∧ t.atResetValues st ∧
    t.pending = s.pending ∧ t.refinIn = s.refinIn ∧ t.lineIn = s.lineIn ∧
    ∀ p, (t.port p).prstLow = (s.port p).prstLow ∧ (t.port p).csLow = (s.port p).csLow ∧ t.misoUndriven p

/-- The first count of a part at its reset values, whatever its straps, is an ordinary count: T = 1, phase 1, frame 0, no frame
event, run CLOSED (R1), and its REFIN sample is no edge (R94). -/
def Obligations.FirstCountAfterReset : Prop :=
  ∀ (s : State) (st : Straps) (refin : Level) (x : LineSet), s.resetLow = false → s.atResetValues st →
    s.count.running = false → s.count.raised = false → s.count.refinEdge = false → s.count.changes = [] →
    ∃ t, exec (.cclkCount refin x) s = .next t ∧
      t.time = { s.time with t := 1, phase := 1, frame := 0, epoch := 0, run := .closed } ∧ t.count.running = true ∧
      t.count.raised = false ∧ t.sync = { s.sync with refinLast := some refin } ∧ t.count.refinEdge = false

/-- PRST_n first sampled low: the port's link is CLOSED, its queue and deferred list are empty, its flags clear and its
transaction abandoned, so that MISO_n is not driven; the session number is kept; the time base, the sync unit and the whole
link of every other port are as they were, but for the end of the count that its answers of the count show (R151, R1,
R93). -/
def Obligations.PortResetClearsTheLink : Prop :=
  ∀ (s : State) (p : PortId), s.resetLow = false → (s.port p).prstLow = false →
    ∃ t, exec (.prstAssert p) s = .next t ∧
      t.port p = { s.port p with
        isOpen := false, responses := [], deferred := [], overrun := false, badFrame := false, chosen := none,
        prstLow := true } ∧
      t.misoUndriven p ∧ t.time = s.time ∧ t.sync = s.sync ∧
      ∀ q, q ≠ p → t.port q = { s.port q with responses := (s.port q).responses.map (Response.refresh t q) }

/-- RESET_N rising and PRST_n first sampled high change nothing but their pin (R1, R134, R151); a PRST_n so released in a count
marks that count as used by the port's link, since the first fall handled is sampled after it (R151; the mark is the model's
own, log 4); while RESET_N is low no count passes, and a CCLK period changes nothing but the input pins (R1, R73, R93). -/
def Obligations.PinCommandsChangeOnlyTheirPins : Prop :=
  ∀ s : State, s.settled →
    exec .resetNRelease s = .next { s with resetLow := false } ∧
    (∀ p, exec (.prstRelease p) s = .next (s.modPort p fun q => { q with
      prstLow := false
      lastEdge := if q.prstLow = true ∧ s.resetLow = false then some s.count.serial else q.lastEdge })) ∧
    ∀ refin x, s.resetLow = true → exec (.cclkCount refin x) s = .next { s with refinIn := refin, lineIn := x }

/-- While RESET_N or PRST_n is low the port's transactions are ignored and MISO_n is not driven: a request changes nothing, a
fall of CS_n chooses nothing, and a rise with no chosen response takes nothing (R134, R151). A transaction whose fall was not
handled is ignored to its end by a port that is no longer held; its rise takes a count of the port (R135, log 4). MISO_n is
not driven while CS_n is high or no response is chosen (R135). -/
def Obligations.HeldPortIgnoresTransactions : Prop :=
  (∀ (s : State) (p : PortId), s.settled → s.handles p = false →
    (∀ c k id body, requestFields c = some (p, k, id, body) → exec c s = .next s) ∧
    exec (.responseChoice p) s = .next (s.modPort p fun q => { q with csLow := true }) ∧
    ((s.port p).chosen = none → ∀ mosi,
      exec (.transactionEnd p mosi) s = .next (s.modPort p fun q => { q with csLow := false }))) ∧
  (∀ (s : State) (p : PortId) (mosi : List Bool), s.settled → s.linkFree p → (s.port p).csLow = true →
    (s.port p).chosen = none → exec (.transactionEnd p mosi) s =
      .next (s.modPort p fun q => { q with csLow := false, lastEdge := some s.count.serial })) ∧
  ∀ (s : State) (p : PortId),
    s.resetLow = true ∨ (s.port p).prstLow = true ∨ (s.port p).csLow = false ∨ (s.port p).chosen = none → s.misoUndriven p

/-! ### Counts (chapter 1) -/

/-- A period of CCLK ends the count in progress and makes one move (R2, R7, R9 to R11), by the step order, the correction run,
c and the slew limit as the count before left them. -/
def Obligations.CountMakesOneMove : Prop :=
  ∀ (s : State) (refin : Level) (x : LineSet), s.resetLow = false →
    ∃ t, exec (.cclkCount refin x) s = .next t ∧ t.count.running = true ∧ t.count.serial = s.count.serial + 1 ∧
      (s.endCount.sync.stepOrder = none →
        (s.endCount.time.run = .closed ∨ s.endCount.sync.c = 0 ∨
          s.endCount.plan.record.slewLimit.toNat ≤ s.endCount.time.performed) →
        State.advancedBy 1 s.endCount t ∧ t.time.run = .closed ∧ t.time.performed = s.endCount.time.performed ∧
          t.sync.c = s.endCount.sync.c) ∧
      (s.endCount.sync.stepOrder = none → s.endCount.time.run = .opened →
        s.endCount.time.performed < s.endCount.plan.record.slewLimit.toNat → 0 < s.endCount.sync.c →
        State.advancedBy 0 s.endCount t ∧ t.time.run = .opened ∧
          t.time.performed = s.endCount.time.performed + 1 ∧ t.sync.c = s.endCount.sync.c - 1) ∧
      (s.endCount.sync.stepOrder = none → s.endCount.time.run = .opened →
        s.endCount.time.performed < s.endCount.plan.record.slewLimit.toNat → s.endCount.sync.c < 0 →
        State.advancedBy 2 s.endCount t ∧ t.time.run = .opened ∧
          t.time.performed = s.endCount.time.performed + 1 ∧ t.sync.c = s.endCount.sync.c + 1) ∧
      (∀ o, s.endCount.sync.stepOrder = some o →
        t.time.t = s.endCount.time.t - BitVec.ofInt 48 o.e ∧ t.time.phase = 0 ∧
          t.time.epoch = s.endCount.time.epoch + 1 ∧ t.time.len = s.endCount.time.len ∧ t.count.raised = true ∧
          t.sync.stepOrder = none ∧ t.sync.c = s.endCount.sync.c ∧
          t.time.frame = (if 0 < o.e then s.endCount.time.frame else s.endCount.time.frame + 1))

/-- A period of CCLK samples REFIN and every INPUT line once (R94, R66): a rising edge of REFIN and a level change that
matches the edge select are recognised; a first sample, an equal sample and a change that does not match only become the
last sample. -/
def Obligations.CountSamplesTheInputs : Prop :=
  ∀ (s : State) (refin : Level) (x : LineSet), s.resetLow = false →
    ∃ t, exec (.cclkCount refin x) s = .next t ∧ t.refinIn = refin ∧ t.lineIn = x ∧ t.sync.refinLast = some refin ∧
      (t.count.refinEdge = true ↔ s.endCount.sync.refinLast = some .low ∧ refin = .high) ∧
      ∀ k, ((s.endCount.line k).mode ≠ .input →
          (t.line k).last = (s.endCount.line k).last ∧ ∀ e, (k, e) ∉ t.count.changes) ∧
        ((s.endCount.line k).mode = .input →
          ((s.endCount.line k).last = none →
            (t.line k).last = some (pinLevel x k) ∧ ∀ e, (k, e) ∉ t.count.changes) ∧
          (∀ v, (s.endCount.line k).last = some v → v = pinLevel x k →
            (t.line k).last = some v ∧ ∀ e, (k, e) ∉ t.count.changes) ∧
          (∀ v e, (s.endCount.line k).last = some v → edgeBetween v (pinLevel x k) = some e →
            if (s.endCount.line k).edge.matches e then (k, e) ∈ t.count.changes
            else (t.line k).last = some (pinLevel x k) ∧ ∀ e, (k, e) ∉ t.count.changes))

/-- A count in which nothing waits ends without any change: no frame event, no due entry, no input edge. -/
def Obligations.QuietCountEndsUnchanged : Prop :=
  ∀ s : State, s.settled → s.count.raised = false → s.count.refinEdge = false → s.count.changes = [] →
    (∀ x ∈ s.schedule.entries, ahead s.time.t x.effective = true) → s.endCount = s

/-- Log 2 and log 3 (model's choices): an event command whose event waits in the count in progress takes it there, the frame
event, the due entries or, for FORWARD_STEP, the boundary event and then the jumped and reached entries (log 14 says which
due entries); one whose event the next count raises takes it in the next count; one whose event neither raises changes
nothing. -/
def Obligations.EventCommandsFindTheirCount : Prop :=
  ∀ (s : State) (c : Instr) (waits : State → Bool) (take : State → State),
    (c, waits, take) ∈ [(Instr.frameBoundaryEvent, State.boundaryWaits, State.takeFrameEvent),
      (.holdoverLimitExpiry, fun t => t.boundaryWaits && t.holdoverExpires, State.takeFrameEvent),
      (.voteWindowExpiry, fun t => t.boundaryWaits && t.voteExpires, State.takeFrameEvent),
      (.backwardStep, State.backwardWaits, State.takeFrameEvent),
      (.forwardStep, State.forwardWaits, fun t => t.takeFrameEvent.resolveAll),
      (.actionDue, State.pendingDue, State.resolvePending),
      (.pulseTrailingEdge, State.pulseDue, fun t => resolveToPulse t.resolveFuel t)] →
    (waits s = true → exec c s = .next (take s).settle) ∧
    (waits s = false → waits s.nextCount = true → exec c s = exec c s.nextCount) ∧
    (waits s = false → waits s.nextCount = false → s.settled → exec c s = .next s)

/-! ### Frame boundary events (R5, R6, R64, R65, R98, R105, R108, R109, R125, R126) -/

/-- A frame boundary event begins the new frame at the time base: L in use is the frame length of the plan record as the
event leaves it, a correction run opens with no correction performed (R5, R6, R7), and a measurement frame begins (R95).
FRAME_BOUNDARY_EVENT takes it alone, so the schedule's list is as it was; FORWARD_STEP takes it in a forward step's count,
and then resolves the jumped and reached entries. -/
def Obligations.FrameBoundaryBeginsTheFrame : Prop :=
  ∀ (s : State) (c : Instr), s.boundaryTakenBy c → ∃ t, exec c s = .next t ∧ t.count.raised = false ∧
    t.time = { s.time with len := t.plan.record.frameLength, run := .opened, performed := 0 } ∧
    t.sync.measured = false ∧ t.journal.counter = s.journal.counter ∧ t.schedule.counter = s.schedule.counter ∧
    (c = .frameBoundaryEvent → t.schedule = s.schedule)

/-- The plan unit at a frame boundary event: an AGREED proposal applies, the plan number increases, PLAN_APPLIED is posted to
every open session, and the proposer request, where it stands, is answered OK with the frame and the new plan number (R126);
a VOTING one is counted down, and removed when none remains, with PLAN_OUTCOME EXPIRED posted to its required voters (R125);
with no proposal nothing changes. -/
def Obligations.FrameBoundaryCountsOrAppliesThePlan : Prop :=
  ∀ (s : State) (c : Instr), s.boundaryTakenBy c → ∃ t, exec c s = .next t ∧
    (s.plan.proposal = none → t.plan = s.plan) ∧
    ∀ x, s.plan.proposal = some x →
      (x.state = .agreed → t.plan = ⟨x.plan, s.plan.number + 1, none, s.plan.counter⟩ ∧
        (∀ p, s.noted t p (.planApplied (s.plan.number + 1) s.time.frame)) ∧
        ∀ p id d, x.request = some (p, id) → (s.port p).deferred.find? (fun d => decide (d.owner = .plan)) = some d →
          ⟨d.kind, d.id, .ok, .propose x.number none s.time.frame (s.plan.number + 1), s.count.serial⟩ ∈
            (t.port p).responses) ∧
      (x.state = .voting → 1 < x.remaining →
        t.plan = { s.plan with proposal := some { x with remaining := x.remaining - 1 } }) ∧
      (x.state = .voting → x.remaining ≤ 1 → t.plan = { s.plan with proposal := none } ∧
        ∀ p : PortId, x.required.getLsbD p.val = true → s.noted t p (.planOutcome x.number .expired))

/-- The sync unit at a frame boundary event, in the order of R108: the frame that ended is closed (R98, R104), and a holdover
frame is counted against the limit in force before the event (R105), which gives `u`; a new plan that applies at the event is
then taken up (R109); and frame measured becomes no. A sync state that the event changes is an occasion of SYNC_CHANGE
(R111), posted to every open session unless the count has posted one (R112). -/
def Obligations.FrameBoundaryClosesTheMeasurementFrame : Prop :=
  ∀ (s : State) (c : Instr) (u : SyncUnit), s.boundaryTakenBy c →
    (s.sync.state = .free ∧ u = s.sync ∨
      s.sync.state ≠ .holdover ∧ s.sync.measured = true ∧ u = s.sync ∨
      s.sync.state ≠ .holdover ∧ s.sync.state ≠ .free ∧ s.sync.measured = false ∧ s.sync.missedRun < 2 ∧
        u = { s.sync with missedRun := s.sync.missedRun + 1 } ∨
      s.sync.state = .acquire ∧ s.sync.measured = false ∧ 2 ≤ s.sync.missedRun ∧
        u = { s.sync with alignedRun := 0, missedRun := 0 } ∨
      (s.sync.state = .locked ∨ s.sync.state = .realign) ∧ s.sync.measured = false ∧ 2 ≤ s.sync.missedRun ∧
        u = { s.sync with state := .holdover, c := 0, alignedRun := 0, missedRun := 0, holdoverCount := 0 } ∨
      s.sync.state = .holdover ∧ ∃ n,
        n = (if s.sync.holdoverCount < 65535 then s.sync.holdoverCount + 1 else s.sync.holdoverCount) ∧
        u = (if s.plan.record.holdoverLimit ≠ 0 ∧ s.plan.record.holdoverLimit.toNat ≤ n then
          { s.sync with state := .acquire, alignedRun := 0, missedRun := 0, holdoverCount := 0 }
        else { s.sync with holdoverCount := n })) →
    ∃ t, exec c s = .next t ∧
      (s.planApplies = false → t.sync = { u with measured := false }) ∧
      (∀ x, s.plan.proposal = some x → x.state = .agreed →
        (x.plan.refEnable = true → u.state = .free → t.sync = { u with state := .acquire, measured := false }) ∧
        (x.plan.refEnable = true → u.state ≠ .free → t.sync = { u with measured := false }) ∧
        (x.plan.refEnable = false → u.state = .free → t.sync = { u with measured := false }) ∧
        (x.plan.refEnable = false → u.state ≠ .free → t.sync =
          { u with state := .free, c := 0, alignedRun := 0, missedRun := 0, holdoverCount := 0, measured := false })) ∧
      (t.sync.state ≠ s.sync.state → s.count.syncPosted = false →
        ∀ p, s.noted t p (.syncChange t.sync.state t.time.epoch t.sync.lastE))

/-- The line table at a frame boundary event: the staged program of an OUTPUT_CYCLE line becomes the active one, checked
against the length of the frame that begins, and its pending CYCLE_STAGE is answered OK with the frame and the forced
indication (R64); where a plan applies, an active program with nothing staged is checked too; in both cases a program the
check forces LOW is reported to the line's owner, where it was not LOW before (R65). -/
def Obligations.FrameBoundarySwapsAndChecksPrograms : Prop :=
  ∀ (s : State) (c : Instr) (k : LineId), s.boundaryTakenBy c → (s.line k).mode = .outputCycle →
    ∃ t, exec c s = .next t ∧
      (∀ g, (s.line k).staged = some g →
        (t.line k).staged = none ∧
        (t.line k).active = some (if t.time.len.toNat ≤ g.program.rise.toNat ∨ t.time.len.toNat ≤ g.program.fall.toNat then
          { g.program with force := .low } else g.program) ∧
        (∀ p id d, g.stager = some (p, id) →
          (s.port p).deferred.find? (fun d => decide (d.owner = .line k)) = some d →
          ⟨d.kind, d.id, .ok, .stage (lineByte k) s.time.frame
            (decide (t.time.len.toNat ≤ g.program.rise.toNat ∨ t.time.len.toNat ≤ g.program.fall.toNat)), s.count.serial⟩ ∈
            (t.port p).responses) ∧
        ∀ p, (s.line k).owner = some p →
          (t.time.len.toNat ≤ g.program.rise.toNat ∨ t.time.len.toNat ≤ g.program.fall.toNat) → g.program.force ≠ .low →
          s.noted t p (.programForced k s.time.frame)) ∧
      (∀ g, (s.line k).staged = none → (s.line k).active = some g →
        (t.line k).active = some (if s.planApplies = true ∧
            (t.time.len.toNat ≤ g.rise.toNat ∨ t.time.len.toNat ≤ g.fall.toNat) then { g with force := .low } else g) ∧
        ∀ p, (s.line k).owner = some p → s.planApplies = true →
          (t.time.len.toNat ≤ g.rise.toNat ∨ t.time.len.toNat ≤ g.fall.toNat) → g.force ≠ .low →
          s.noted t p (.programForced k s.time.frame))

/-- A program that is out of range of the new length is forced LOW, whether it is the active program checked because a plan
applies or the staged program swapped in; it is reported to the line's owner, once, when its force was not LOW before; an
unowned line, a program in range and one already LOW report nothing (R65). -/
def Obligations.ForcedProgramIsReportedToItsOwner : Prop :=
  ∀ (s : State) (k : LineId) (g : Program) (len : Phase), (s.line k).mode = .outputCycle →
    ((s.line k).staged = none → (s.line k).active = some g →
      (∀ p, (s.line k).owner = some p → (len.toNat ≤ g.rise.toNat ∨ len.toNat ≤ g.fall.toNat) → g.force ≠ .low →
        s.boundaryLine len true k =
          (s.modLine k fun l => { l with active := some { g with force := .low } }).post p (.programForced k s.time.frame)) ∧
      (((s.line k).owner = none ∨ g.force = .low) → (len.toNat ≤ g.rise.toNat ∨ len.toNat ≤ g.fall.toNat) →
        s.boundaryLine len true k = s.modLine k fun l => { l with active := some { g with force := .low } }) ∧
      (g.rise.toNat < len.toNat → g.fall.toNat < len.toNat → s.boundaryLine len true k = s)) ∧
    ∀ (applied : Bool) (stager : Option (PortId × Byte)) (answered : Bool → State), (s.line k).staged = some ⟨g, stager⟩ →
      (∀ forced, answered forced = s.answerStager k .ok (.stage (lineByte k) s.time.frame forced)) →
      (∀ p, (s.line k).owner = some p → (len.toNat ≤ g.rise.toNat ∨ len.toNat ≤ g.fall.toNat) → g.force ≠ .low →
        s.boundaryLine len applied k = State.post p (.programForced k s.time.frame)
          ((answered true).modLine k fun l => { l with active := some { g with force := .low }, staged := none })) ∧
      (((s.line k).owner = none ∨ g.force = .low) → (len.toNat ≤ g.rise.toNat ∨ len.toNat ≤ g.fall.toNat) →
        s.boundaryLine len applied k =
          (answered true).modLine k fun l => { l with active := some { g with force := .low }, staged := none }) ∧
      (g.rise.toNat < len.toNat → g.fall.toNat < len.toNat → s.boundaryLine len applied k =
        (answered false).modLine k fun l => { l with active := some g, staged := none })

/-- The holdover limit expires at a frame boundary event: ACQUIRE, with the run and holdover counts 0 (R105). -/
def Obligations.HoldoverLimitExpiryEntersAcquire : Prop :=
  ∀ s : State, s.boundaryWaits = true → s.sync.state = .holdover → s.plan.record.holdoverLimit ≠ 0 →
    s.plan.record.holdoverLimit.toNat ≤ min (s.sync.holdoverCount + 1) 65535 → s.planApplies = false →
    ∃ t, exec .holdoverLimitExpiry s = .next t ∧ t.sync.state = .acquire ∧ t.sync.alignedRun = 0 ∧ t.sync.missedRun = 0 ∧
      t.sync.holdoverCount = 0 ∧ t.sync.c = s.sync.c ∧ t.sync.lastE = s.sync.lastE ∧
      t.sync.strayCount = s.sync.strayCount ∧ t.count.raised = false

/-- The vote window of a proposal expires at a frame boundary event: the proposal is removed, the proposer request, where it
stands, is answered EXPIRED with the proposal number, and PLAN_OUTCOME EXPIRED is posted to the required voters; the plan
record and number stay (R125). -/
def Obligations.VoteWindowExpiryEndsTheProposal : Prop :=
  ∀ (s : State) (x : Proposal), s.boundaryWaits = true → s.plan.proposal = some x → x.state = .voting → x.remaining ≤ 1 →
    ∃ t, exec .voteWindowExpiry s = .next t ∧ t.plan = { s.plan with proposal := none } ∧ t.count.raised = false ∧
      (∀ p id d, x.request = some (p, id) → (s.port p).deferred.find? (fun d => decide (d.owner = .plan)) = some d →
        ⟨d.kind, d.id, .expired, .propose x.number none 0 0, s.count.serial⟩ ∈ (t.port p).responses) ∧
      ∀ p : PortId, x.required.getLsbD p.val = true → s.noted t p (.planOutcome x.number .expired)

/-! ### Steps of the time base (R9 to R11, R38, R40) -/

/-- A backward step: T falls by e, the phase is 0, the frame number stays, the epoch increases; the frame restarts, so a
correction run opens and a measurement frame begins; no entry is resolved, no program is swapped and no plan is counted or
applied in it (R10, R40, R108); SYNC_CHANGE is posted to every open session, once in the count (R111, R112). The first clause
is the command that makes the step's count (log 3), the second the one that comes after the CCLK_COUNT that made it. -/
def Obligations.BackwardStepRestartsTheFrame : Prop :=
  (∀ (s : State) (o : StepOrder), s.resetLow = false → s.backwardWaits = false →
    s.endCount.sync.stepOrder = some o → 0 < o.e →
    ∃ t, exec .backwardStep s = .next t ∧
      t.time = { s.endCount.time with
        t := s.endCount.time.t - BitVec.ofInt 48 o.e, phase := 0, epoch := s.endCount.time.epoch + 1, run := .opened,
        performed := 0 } ∧
      t.sync = { s.endCount.sync with stepOrder := none, measured := false, refinLast := some s.refinIn } ∧
      t.count.raised = false ∧ t.schedule = s.endCount.schedule ∧ t.plan = s.endCount.plan ∧
      (∀ p, s.endCount.noted t p (.syncChange t.sync.state t.time.epoch t.sync.lastE)) ∧
      ∀ k, (t.line k).staged = (s.endCount.line k).staged ∧ (t.line k).active = (s.endCount.line k).active) ∧
  ∀ s : State, s.backwardWaits = true → ∃ t, exec .backwardStep s = .next t ∧
    t.time = { s.time with run := .opened, performed := 0 } ∧ t.sync = { s.sync with measured := false } ∧
    t.count.raised = false ∧ t.schedule = s.schedule ∧ t.plan = s.plan ∧ t.ports = s.settle.ports ∧
    (s.count.syncPosted = false → ∀ p, s.noted t p (.syncChange t.sync.state t.time.epoch t.sync.lastE)) ∧
    ∀ k, t.line k = s.settle.line k

/-- A forward step: T rises by |e|, the phase is 0, the frame number and the epoch increase, and a frame boundary event is
raised (R11), which FORWARD_STEP takes in the count it begins (log 3). Taking it handles the event with the effects of the
frame boundary statements, which hold for this command too; then resolves, one after another at the head of the list, every
entry that is not ahead of the new T (R38, R39), so that in a list in order none is left; and posts SYNC_CHANGE to every open
session, once in the count (R111, R112), at the end of the boundary event where the count has posted none (its place among the
posts of the event is the model's choice, R162, log 12). -/
def Obligations.ForwardStepRaisesAFrameBoundary : Prop :=
  (∀ (s : State) (o : StepOrder), s.resetLow = false → s.forwardWaits = false →
    s.endCount.sync.stepOrder = some o → o.e < 0 →
    s.nextCount.time = { s.endCount.time with
      t := s.endCount.time.t - BitVec.ofInt 48 o.e, phase := 0, frame := s.endCount.time.frame + 1,
      epoch := s.endCount.time.epoch + 1 } ∧
    s.nextCount.sync = { s.endCount.sync with stepOrder := none, refinLast := some s.refinIn } ∧
    s.nextCount.count.move = .forward o.state ∧ s.nextCount.forwardWaits = true ∧
    s.nextCount.schedule = s.endCount.schedule ∧ s.nextCount.plan = s.endCount.plan ∧
    exec .forwardStep s = exec .forwardStep s.nextCount) ∧
  ∀ s : State, s.forwardWaits = true → ∃ t, exec .forwardStep s = .next t ∧
    t = s.takeFrameEvent.resolveAll.settle ∧ t.time.t = s.time.t ∧ t.time.phase = s.time.phase ∧
    t.time.frame = s.time.frame ∧ t.time.epoch = s.time.epoch ∧ t.count.raised = false ∧
    (s.count.syncPosted = false → ∀ p, s.noted t p (.syncChange t.sync.state t.time.epoch t.sync.lastE)) ∧
    (s.listInOrder → ∀ x ∈ t.schedule.entries, ahead t.time.t x.effective = true)

/-- The resolutions of a count are made one after another at the head of the list, while the head is not ahead of T (R33, R38,
R39). A jumped entry at a forward step is handled by its state, late policy, sync class and kind (table of R38); its HELD
check reads the sync state of the step's order. An entry at the new T, and one that is reached in any other count, is due
(R34 to R36, R39); its HELD check reads the sync state of the count. -/
def Obligations.JumpedEntriesFollowTheirLatePolicy : Prop :=
  (∀ s : State, (∀ x rest, s.schedule.entries = x :: rest → ahead s.time.t x.effective = true) → s.resolveAll = s) ∧
  (∀ (s : State) (x : Entry) (rest : List Entry), s.schedule.entries = x :: rest → ahead s.time.t x.effective = false →
    s.resolveAll = (s.resolveOne x).resolveAll) ∧
  (∀ (s : State) (x : Entry) (held : SyncState), s.count.move = .forward held → x.effective ≠ s.time.t →
    (∀ g, x.pulse = some g → s.resolveOne x =
      (s.trail x.line x.kind).resolve x (if g.start = .onTime then .done else .late)) ∧
    (x.pulse = none → x.late = .skip → s.resolveOne x = s.resolve x .skipped) ∧
    (x.pulse = none → x.late = .runLate → x.sync = .held → held ≠ .locked → held ≠ .holdover →
      s.resolveOne x = s.resolve x .unsynced) ∧
    (x.pulse = none → x.late = .runLate → (x.sync = .any ∨ held = .locked ∨ held = .holdover) →
      ((x.kind = .set ∨ x.kind = .clear ∨ x.kind = .toggle) →
        s.resolveOne x = (s.lead x.line x.kind).resolve x .late) ∧
      ((x.kind = .pulseHigh ∨ x.kind = .pulseLow) → s.resolveOne x =
        (s.lead x.line x.kind).startPulse x ⟨s.time.t + x.width.zeroExtend 48, .late⟩))) ∧
  ∀ (s : State) (x : Entry), (s.count.move.isForward = false ∨ x.effective = s.time.t) →
    (∀ g, x.pulse = some g → s.resolveOne x =
      (s.trail x.line x.kind).resolve x (if g.start = .onTime then .done else .late)) ∧
    (x.pulse = none → ¬heldAllows x.sync s.sync.state → s.resolveOne x = s.resolve x .unsynced) ∧
    (x.pulse = none → heldAllows x.sync s.sync.state →
      ((x.kind = .set ∨ x.kind = .clear ∨ x.kind = .toggle) →
        s.resolveOne x = (s.lead x.line x.kind).resolve x .done) ∧
      ((x.kind = .pulseHigh ∨ x.kind = .pulseLow) → s.resolveOne x =
        (s.lead x.line x.kind).startPulse x ⟨x.due + x.width.zeroExtend 48, .onTime⟩))

/-! ### The schedule (chapter 2) -/

/-- A due PENDING entry at the head of the list (R33 to R35), where nothing after it is due: it is resolved UNSYNCED when its
HELD check fails; a SET, CLEAR or TOGGLE hands its level and is resolved DONE; a pulse hands its leading level and is placed
again as IN_PULSE with its end time measured from the due time (placed from the time the count began with, R21, log 13), and
notifies nobody. Other lines, the time and the counter stay. -/
def Obligations.DueActionIsPerformedAndResolved : Prop :=
  ∀ (s : State) (x : Entry) (rest : List Entry), s.settled → s.schedule.entries = x :: rest → x.pulse = none →
    ahead s.time.t x.due = false → (∀ y ∈ rest, ahead s.time.t y.effective = true) → s.count.move.isForward = false →
    ∃ t, exec .actionDue s = .next t ∧ t.time = s.time ∧ t.schedule.counter = s.schedule.counter ∧
      (∀ k, k ≠ x.line → t.line k = s.line k) ∧
      (¬heldAllows x.sync s.sync.state → t.schedule.entries = rest ∧ t.line x.line = s.line x.line ∧
        s.resultPosted x .unsynced t) ∧
      (heldAllows x.sync s.sync.state → (s.line x.line).mode = .outputEvent →
        t.line x.line = (s.line x.line).drivenAt (s.leadingLevel x.line x.kind) ∧
        ((x.kind = .set ∨ x.kind = .clear ∨ x.kind = .toggle) →
          t.schedule.entries = rest ∧ s.resultPosted x .done t) ∧
        ((x.kind = .pulseHigh ∨ x.kind = .pulseLow) →
          t.schedule.entries =
            place s.count.ref { x with pulse := some ⟨x.due + x.width.zeroExtend 48, .onTime⟩ } rest ∧
          ∀ p, t.queue p = s.queue p))

/-- A due IN_PULSE entry at the head of the list (R36): its trailing level is handed and it is resolved, DONE when its start is
ON_TIME and LATE when it is LATE. Other lines, the other entries, the time and the counter stay. -/
def Obligations.PulseTrailingEdgeIsDrivenAndResolved : Prop :=
  ∀ (s : State) (x : Entry) (rest : List Entry) (g : Pulse), s.settled → s.schedule.entries = x :: rest →
    x.pulse = some g → ahead s.time.t g.endTime = false → (x.kind = .pulseHigh ∨ x.kind = .pulseLow) →
    (s.line x.line).mode = .outputEvent →
    ∃ t, exec .pulseTrailingEdge s = .next t ∧ t.time = s.time ∧ t.schedule = { s.schedule with entries := rest } ∧
      t.line x.line = (s.line x.line).drivenAt (trailingLevel x.kind) ∧ (∀ k, k ≠ x.line → t.line k = s.line k) ∧
      s.resultPosted x (if g.start = .onTime then .done else .late) t

/-- Placement (R21) inserts one entry and moves no other; where the list stands in the order of its effective times, measured
forward, the entry goes after every entry at or before its own time and the list stays in order. -/
def Obligations.PlacementKeepsTheListOrder : Prop :=
  ∀ (ref : TimeCount) (x : Entry) (es : List Entry), ∃ before after, es = before ++ after ∧
    place ref x es = before ++ x :: after ∧
    (∀ y ∈ before, forward ref y.effective ≤ forward ref x.effective) ∧
    (es.Pairwise (fun a b => forward ref a.effective ≤ forward ref b.effective) →
      (∀ y ∈ after, forward ref x.effective < forward ref y.effective) ∧
      (place ref x es).Pairwise fun a b => forward ref a.effective ≤ forward ref b.effective)

/-- The counters that give numbers (R19, R75, R116, R156): the next value is neither 0 nor a number in use, whatever the
numbers in use, as long as they leave a value free. -/
def Obligations.CountersSkipZeroAndNumbersInUse : Prop :=
  ∀ (w : Nat) (used : List (BitVec w)) (v : BitVec w), used.length + 1 < 2 ^ w →
    advanceCounter used v ≠ 0 ∧ advanceCounter used v ∉ used ∧ (v + 1 ≠ 0 → v + 1 ∉ used → advanceCounter used v = v + 1)

/-- ACTION_POST refused (R24 to R26, R30): the answer of the first check that fails, with action number 0 and the T and epoch
of the count; nothing else changes. -/
def Obligations.ActionPostIsRefusedByItsChecks : Prop :=
  ∀ (s : State) (p : PortId) (id line kind : Byte) (width : Phase) (due : TimeCount) (late sync notify : Byte)
    (tag : BitVec 16) (r : Result), s.serving p →
    (r = .notOwner ∧ s.notOwned p line ∨
      r = .wrongMode ∧ (∃ k m, s.ownsIn p line k m ∧ m ≠ .outputEvent) ∨
      (∃ k, s.ownsIn p line k .outputEvent) ∧
        (r = .badValue ∧ ¬postInRange kind width late sync notify ∨
          postInRange kind width late sync notify ∧
            (r = .outOfHorizon ∧ outOfHorizon s.time.t due ∨
              ¬outOfHorizon s.time.t due ∧ (ahead s.time.t due = true ∨ late = 1 ∧ (kind = 4 ∨ kind = 5)) ∧
                (r = .quota ∧ s.plan.record.portQuota.toNat ≤ s.entryCount p ∨
                  r = .scheduleFull ∧ s.entryCount p < s.plan.record.portQuota.toNat ∧
                    128 ≤ s.schedule.entries.length)))) →
    exec (.actionPost p id line kind width due late sync notify tag) s =
      .next (s.answered p 0x20 id r (.post 0 s.time.t s.time.epoch))

/-- A future ACTION_POST that passes every check (R26) is answered OK with the counter's number; its PENDING entry is placed by
its due time, and the counter moves on. The place is measured from the reference of the count, where R21 says from T: log 13
(DEDUCED: for entries ahead of both the order is the same). -/
def Obligations.FutureActionPostMakesAPendingEntry : Prop :=
  ∀ (s : State) (p : PortId) (id : Byte) (k : LineId) (kd : ActionKind) (width : Phase) (due : TimeCount) (lp : LatePolicy)
    (sc : SyncClass) (nt : Bool) (tag : BitVec 16) (es : List Entry), s.serving p → (s.line k).owner = some p →
    (s.line k).mode = .outputEvent → ((kd = .pulseHigh ∨ kd = .pulseLow) ↔ width ≠ 0) →
    0 < (due - s.time.t).toNat → (due - s.time.t).toNat ≤ 2 ^ 40 →
    s.entryCount p < s.plan.record.portQuota.toNat → s.schedule.entries.length < 128 →
    es = place s.count.ref ⟨s.schedule.counter, some p, k, kd, width, due, lp, sc, nt, tag, none⟩ s.schedule.entries →
    exec (.actionPost p id (lineByte k) kd.code width due lp.code sc.code (flagByte nt) tag) s =
      .next (State.settle (State.answered p 0x20 id .ok (.post s.schedule.counter s.time.t s.time.epoch)
        { s with schedule := ⟨es, advanceCounter (es.map (·.number)) s.schedule.counter⟩ }))

/-- A late ACTION_POST with late policy SKIP (R27): answered SKIPPED, no number consumed, nothing performed, no entry made,
whatever the quota, the capacity and the sync class. (The marks of the count are the model's own: log 4, log 18.) -/
def Obligations.LateSkipPostIsAnsweredSkipped : Prop :=
  ∀ (s : State) (p : PortId) (id line kind : Byte) (width : Phase) (due : TimeCount) (sync notify : Byte) (tag : BitVec 16)
    (k : LineId), s.serving p → s.ownsIn p line k .outputEvent → postInRange kind width 2 sync notify →
    (s.time.t - due).toNat ≤ 2 ^ 40 →
    exec (.actionPost p id line kind width due 2 sync notify tag) s =
      .next (s.answered p 0x20 id .skipped (.post 0 s.time.t s.time.epoch))

/-- A late ACTION_POST with late policy RUN_LATE (R28, R29): a number is consumed; where the HELD check fails it is answered
UNSYNCED and nothing is performed; else a SET, CLEAR or TOGGLE is performed with no entry, and a pulse within quota and
capacity drives its leading edge and stands as an IN_PULSE entry that ends a width from T; both are answered LATE. The
pulse's place is measured from the reference of the count, where R21 says from T: log 13 (DEDUCED). -/
def Obligations.LateRunPostActsAtOnce : Prop :=
  ∀ (s : State) (p : PortId) (id : Byte) (k : LineId) (kd : ActionKind) (width : Phase) (due : TimeCount)
    (sc : SyncClass) (nt : Bool) (tag : BitVec 16), s.serving p → (s.line k).owner = some p →
    (s.line k).mode = .outputEvent → ((kd = .pulseHigh ∨ kd = .pulseLow) ↔ width ≠ 0) → (s.time.t - due).toNat ≤ 2 ^ 40 →
    ((kd = .pulseHigh ∨ kd = .pulseLow) →
      s.entryCount p < s.plan.record.portQuota.toNat ∧ s.schedule.entries.length < 128) →
    (¬heldAllows sc s.sync.state →
      exec (.actionPost p id (lineByte k) kd.code width due 1 sc.code (flagByte nt) tag) s =
        .next (State.settle (State.answered p 0x20 id .unsynced (.post s.schedule.counter s.time.t s.time.epoch)
          { s with schedule :=
            ⟨s.schedule.entries, advanceCounter (s.schedule.entries.map (·.number)) s.schedule.counter⟩ }))) ∧
    (heldAllows sc s.sync.state → width = 0 →
      exec (.actionPost p id (lineByte k) kd.code width due 1 sc.code (flagByte nt) tag) s =
        .next (State.settle (State.answered p 0x20 id .late (.post s.schedule.counter s.time.t s.time.epoch)
          (State.modLine k (Line.drivenAt (s.leadingLevel k kd)) { s with schedule :=
            ⟨s.schedule.entries, advanceCounter (s.schedule.entries.map (·.number)) s.schedule.counter⟩ })))) ∧
    (heldAllows sc s.sync.state → width ≠ 0 → ∀ es, es = place s.count.ref
        ⟨s.schedule.counter, some p, k, kd, width, due, .runLate, sc, nt, tag,
          some ⟨s.time.t + width.zeroExtend 48, .late⟩⟩ s.schedule.entries →
      exec (.actionPost p id (lineByte k) kd.code width due 1 sc.code (flagByte nt) tag) s =
        .next (State.settle (State.answered p 0x20 id .late (.post s.schedule.counter s.time.t s.time.epoch)
          (State.modLine k (Line.drivenAt (s.leadingLevel k kd)) { s with schedule :=
            ⟨es, advanceCounter (es.map (·.number)) s.schedule.counter⟩ }))))

/-- ACTION_CANCEL (R41, R42): the refusals, which change nothing else; and the accepted cancels ONE, TAG and LINE, which remove
exactly the selected entries of the port, PENDING or IN_PULSE, hand the trailing level of each IN_PULSE one in list order,
post their ACTION_RESULTs CANCELLED to the port in that order, and answer OK with their number, 1 for ONE. -/
def Obligations.ActionCancelRemovesTheSelectedEntries : Prop :=
  ∀ (s : State) (p : PortId) (id : Byte) (arg : BitVec 32), s.serving p →
    (∀ sel r, (r = .badValue ∧ sel ≠ 1 ∧ sel ≠ 2 ∧ sel ≠ 3 ∨ r = .badValue ∧ sel = 2 ∧ arg.extractLsb' 0 16 = 0 ∨
        r = .badValue ∧ sel = 3 ∧ 16 ≤ (arg.extractLsb' 0 8).toNat ∨
        r = .unknown ∧ sel = 1 ∧ (∀ x ∈ s.schedule.entries, x.number ≠ arg) ∨
        r = .notOwner ∧ sel = 1 ∧ (∃ x ∈ s.schedule.entries, x.number = arg) ∧
          ∀ x ∈ s.schedule.entries, x.number = arg → x.owner ≠ some p) →
      exec (.actionCancel p id sel arg) s = .next (s.answered p 0x21 id r (.cancel 0))) ∧
    ((s.schedule.entries.map (·.number)).Nodup → ∀ sel chosen,
      (sel = 1 ∧ (∃ x ∈ s.schedule.entries, x.number = arg ∧ x.owner = some p) ∧
          chosen = (fun y : Entry => decide (y.number = arg)) ∨
        sel = 2 ∧ arg.extractLsb' 0 16 ≠ 0 ∧
          chosen = (fun y : Entry => decide (y.owner = some p ∧ y.tag = arg.extractLsb' 0 16)) ∨
        ∃ k, sel = 3 ∧ arg.extractLsb' 0 8 = lineByte k ∧
          chosen = fun y : Entry => decide (y.owner = some p ∧ y.line = k)) →
      ∃ t rs, exec (.actionCancel p id sel arg) s = .next t ∧ t.time = s.time ∧
        t.schedule = { s.schedule with entries := s.schedule.entries.filter fun y => !chosen y } ∧
        (∀ k, t.line k = (s.schedule.entries.filter chosen).foldl (Line.trailed k) (s.line k)) ∧
        t.queue p = s.queueAfter p (((s.schedule.entries.filter chosen).filter (·.notify)).map fun y =>
          .actionResult y.number y.tag y.line .cancelled s.time.t s.time.epoch) ∧
        (∀ q, q ≠ p → t.queue q = s.queue q) ∧
        (t.port p).responses =
          rs ++ [⟨0x21, id, .ok, .cancel (s.schedule.entries.filter chosen).length, s.count.serial⟩] ∧
        (sel = 1 → (s.schedule.entries.filter chosen).length = 1))

/-! ### Reads -/

/-- TIME_READ (R16, R17), STATUS_READ on an open port and on a closed one (R153), PLAN_READ (R132), NOTE_READ (R163),
LINE_QUERY (R72) and ACTION_QUERY (R44) answer what stands at the end of the count and change nothing but the link of their
port. -/
def Obligations.ReadsAnswerAndChangeNothingElse : Prop :=
  ∀ (s : State) (p : PortId) (id : Byte), s.canTake p → s.settled →
    exec (.statusRead p id) s = .next (s.answered p 0x03 id .ok (.status
      { sessionMap := s.openPorts, session := (s.port p).session, state := s.sync.state, epoch := s.time.epoch,
        planNumber := s.plan.number, proposal := s.plan.proposal.map (·.state),
        scheduleOccupancy := s.schedule.entries.length, journalOccupancy := s.journal.records.length,
        entryCount := s.schedule.entries.countP (fun x => decide (x.owner = some p)), missed := s.missed p })) ∧
    (s.isOpen p = true →
      exec (.timeRead p id) s = .next (s.answered p 0x10 id .ok (.time ⟨s.time.t, s.time.frame, s.time.phase, s.time.len,
        s.sync.state, s.time.epoch, s.plan.number, s.sync.lastE, s.sync.strayCount⟩)) ∧
      exec (.planRead p id) s =
        .next (s.answered p 0x63 id .ok (.planRead ⟨s.plan.record, s.plan.number, s.plan.proposal⟩)) ∧
      (∀ n ns, (s.queue p).entries = n :: ns → exec (.noteRead p id) s =
        .next (s.answered p 0x50 id .ok (.note ⟨.ordinary n, (s.queue p).size, (s.queue p).lost⟩))) ∧
      (∀ o, (s.queue p).entries = [] → (s.queue p).overflow = some o →
        exec (.noteRead p id) s = .next (s.answered p 0x50 id .ok (.note ⟨.overflow o, 1, o.lost⟩))) ∧
      ((s.queue p).entries = [] → (s.queue p).overflow = none →
        exec (.noteRead p id) s = .next (s.answered p 0x50 id .ok (.note ⟨.empty, 0, 0⟩))) ∧
      (∀ line : Byte, 16 ≤ line.toNat →
        exec (.lineQuery p id line) s = .next (s.answered p 0x34 id .badValue (.lineRecord none))) ∧
      (∀ k, exec (.lineQuery p id (lineByte k)) s = .next (s.answered p 0x34 id .ok (.lineRecord (some
        ⟨k, s.line k, s.schedule.entries.countP (fun x => decide (x.line = k)), s.time.t, s.time.epoch⟩)))) ∧
      (∀ n, (∀ x ∈ s.schedule.entries, x.number ≠ n) → exec (.actionQuery p id n) s =
        .next (s.answered p 0x22 id .unknown (.query none s.time.t s.time.epoch))) ∧
      ((s.schedule.entries.map (·.number)).Nodup → ∀ x ∈ s.schedule.entries, exec (.actionQuery p id x.number) s =
        .next (s.answered p 0x22 id .ok (.query (some x) s.time.t s.time.epoch))))

/-! ### The line table (chapter 3) -/

/-- LINE_CLAIM by the condition of the line (R53, R48): a free line is CLAIMED, an unowned retained one ADOPTED with its orphans,
one of the port's own ALREADY_OWNED, another port's HELD_BY_OTHER, and a number above 15 BAD_VALUE. -/
def Obligations.LineClaimFollowsTheLineCondition : Prop :=
  ∀ (s : State) (p : PortId) (id : Byte), s.serving p →
    (∀ line : Byte, 16 ≤ line.toNat →
      exec (.lineClaim p id line) s = .next (s.answered p 0x30 id .badValue (.claim line none 0))) ∧
    ∀ k : LineId,
      ((s.line k).owner = none → (s.line k).retain = false →
        exec (.lineClaim p id (lineByte k)) s = .next (State.settle (State.answered p 0x30 id .ok
          (.claim (lineByte k) (some .claimed) 0) (s.modLine k fun l => { l with owner := some p })))) ∧
      ((s.line k).owner = none → (s.line k).retain = true →
        exec (.lineClaim p id (lineByte k)) s = .next (State.settle (State.answered p 0x30 id .ok
          (.claim (lineByte k) (some .adopted)
            (s.schedule.entries.countP fun x => decide (x.line = k ∧ x.owner = none)))
          (State.setEntries (s.schedule.entries.map fun x =>
              if x.line = k ∧ x.owner = none then { x with owner := some p } else x)
            (s.modLine k fun l => { l with owner := some p }))))) ∧
      ((s.line k).owner = some p → exec (.lineClaim p id (lineByte k)) s =
        .next (s.answered p 0x30 id .ok (.claim (lineByte k) (some .alreadyOwned) 0))) ∧
      (∀ q, (s.line k).owner = some q → q ≠ p → exec (.lineClaim p id (lineByte k)) s =
        .next (s.answered p 0x30 id .heldByOther (.claim (lineByte k) none 0)))

/-- LINE_RELEASE (R55, R68): refused NOT_OWNER or LINE_BUSY it changes nothing else; accepted, the line is OFF, free and at its
safe level, keeping safe level, edge select and initial level; a pending CYCLE_STAGE is answered CANCELLED before the release's
OK; and leaving INPUT posts INPUT_STOPPED to the subscribed open ports. -/
def Obligations.LineReleaseFreesTheLine : Prop :=
  ∀ (s : State) (p : PortId) (id : Byte), s.serving p →
    (∀ line, s.notOwned p line → exec (.lineRelease p id line) s = .next (s.answered p 0x31 id .notOwner (.line line))) ∧
    ∀ k, (s.line k).owner = some p →
      ((∃ x ∈ s.schedule.entries, x.line = k) → exec (.lineRelease p id (lineByte k)) s =
        .next (s.answered p 0x31 id .lineBusy (.line (lineByte k)))) ∧
      ((∀ x ∈ s.schedule.entries, x.line ≠ k) → ∃ t, exec (.lineRelease p id (lineByte k)) s = .next t ∧
        t.line k = { s.line k with
          mode := .off, owner := none, retain := false, driven := none, last := none, active := none, staged := none } ∧
        t.outputs.linePins[k] = (s.line k).safe ∧ (∀ j, j ≠ k → t.line j = s.line j) ∧ t.schedule = s.schedule ∧
        (∀ q, t.queue q = if (s.line k).mode = .input ∧ (s.subs q).getLsbD k.val = true then
          (s.post q (.inputStopped k)).queue q else s.queue q) ∧
        (t.port p).responses.getLast? = some ⟨0x31, id, .ok, .line (lineByte k), s.count.serial⟩ ∧
        ((s.line k).staged = none → (t.port p).responses =
          (s.port p).responses ++ [⟨0x31, id, .ok, .line (lineByte k), s.count.serial⟩]) ∧
        ∀ g q i d, (s.line k).staged = some g → g.stager = some (q, i) →
          (s.port q).deferred.find? (fun d => decide (d.owner = .line k)) = some d →
          ⟨d.kind, d.id, .cancelled, .stage (lineByte k) 0 false, s.count.serial⟩ ∈ (t.port q).responses ∧
            (t.port q).deferred = (s.port q).deferred.eraseP fun d => decide (d.owner = .line k))

/-- LINE_CONFIG (R56 to R58): the refusals; a request that repeats the mode sets the other four fields alone; one that changes
it leaves the old mode and enters the new one with its table's values: leaving INPUT posts INPUT_STOPPED (R68), and leaving
OUTPUT_CYCLE answers a pending CYCLE_STAGE CANCELLED before the request's own OK. -/
def Obligations.LineConfigSetsTheFiveFields : Prop :=
  ∀ (s : State) (p : PortId) (id : Byte), s.serving p →
    (∀ line m sf r e i, s.notOwned p line → exec (.lineConfig p id line m sf r e i) s =
      .next (s.answered p 0x32 id .notOwner (.line line))) ∧
    ∀ k, (s.line k).owner = some p →
      (∀ m sf r e i : Byte, (3 < m.toNat ∨ 2 < sf.toNat ∨ 1 < r.toNat ∨ e = 0 ∨ 3 < e.toNat ∨ 1 < i.toNat) →
        exec (.lineConfig p id (lineByte k) m sf r e i) s = .next (s.answered p 0x32 id .badValue (.line (lineByte k)))) ∧
      ∀ (m : Mode) (sf : Drive) (r : Bool) (e : EdgeSelect) (i : Level),
        (m ≠ (s.line k).mode → (∃ x ∈ s.schedule.entries, x.line = k) →
          exec (.lineConfig p id (lineByte k) m.code sf.code (flagByte r) e.code (levelCode i)) s =
            .next (s.answered p 0x32 id .lineBusy (.line (lineByte k)))) ∧
        (m = (s.line k).mode →
          exec (.lineConfig p id (lineByte k) m.code sf.code (flagByte r) e.code (levelCode i)) s =
            .next (State.settle (State.answered p 0x32 id .ok (.line (lineByte k))
              (s.modLine k fun l => { l with safe := sf, retain := r, edge := e, initial := i })))) ∧
        (m ≠ (s.line k).mode → (∀ x ∈ s.schedule.entries, x.line ≠ k) →
          ∃ t, exec (.lineConfig p id (lineByte k) m.code sf.code (flagByte r) e.code (levelCode i)) s = .next t ∧
            (t.line k).mode = m ∧ (t.line k).owner = some p ∧ (t.line k).safe = sf ∧ (t.line k).retain = r ∧
            (t.line k).edge = e ∧ (t.line k).initial = i ∧ (t.line k).last = none ∧ (t.line k).staged = none ∧
            (t.line k).driven = (match m with
              | .off => none
              | .input => none
              | .outputEvent => some i
              | .outputCycle => some .low) ∧
            (t.line k).active = (if m = .outputCycle then some ⟨0, 0, .low⟩ else none) ∧
            (∀ j, j ≠ k → t.line j = s.line j) ∧ t.schedule = s.schedule ∧
            (t.port p).responses.getLast? = some ⟨0x32, id, .ok, .line (lineByte k), s.count.serial⟩ ∧
            (∀ g q n d, (s.line k).staged = some g → g.stager = some (q, n) →
              (s.port q).deferred.find? (fun d => decide (d.owner = .line k)) = some d →
              ⟨d.kind, d.id, .cancelled, .stage (lineByte k) 0 false, s.count.serial⟩ ∈ (t.port q).responses ∧
                (t.port q).deferred = (s.port q).deferred.eraseP fun d => decide (d.owner = .line k)) ∧
            ∀ q, t.queue q = if (s.line k).mode = .input ∧ (s.subs q).getLsbD k.val = true then
              (s.post q (.inputStopped k)).queue q else s.queue q)

/-- LINE_DRIVE (R59): the checks in their order, then the driven level set at once and the answer OK with the T and epoch of the
count; schedule entries are not looked at and not changed. (The marks of the count are the model's own: log 4, log 18.) -/
def Obligations.LineDriveSetsTheDrivenLevel : Prop :=
  ∀ (s : State) (p : PortId) (id line : Byte), s.serving p →
    (∀ level, s.notOwned p line →
      exec (.lineDrive p id line level) s = .next (s.answered p 0x33 id .notOwner (.drive line 0 0))) ∧
    (∀ level k m, s.ownsIn p line k m → m ≠ .outputEvent →
      exec (.lineDrive p id line level) s = .next (s.answered p 0x33 id .wrongMode (.drive line 0 0))) ∧
    ∀ k, s.ownsIn p line k .outputEvent →
      (∀ level : Byte, 1 < level.toNat →
        exec (.lineDrive p id line level) s = .next (s.answered p 0x33 id .badValue (.drive line 0 0))) ∧
      ∀ v, exec (.lineDrive p id line (levelCode v)) s = .next (State.settle (State.answered p 0x33 id .ok
        (.drive line s.time.t s.time.epoch) (s.modLine k (Line.drivenAt (some v)))))

/-- CYCLE_STAGE (R63): the refusals, answered at once; accepted, the program stands in the staged slot with this request as its
stager, the request is held deferred, and a pending request whose program is replaced is answered SUPERSEDED. -/
def Obligations.CycleStageTakesTheStagedSlot : Prop :=
  ∀ (s : State) (p : PortId) (id line : Byte) (a b : Phase), s.serving p →
    (∀ force r, (r = .notOwner ∧ s.notOwned p line ∨
        r = .wrongMode ∧ (∃ k m, s.ownsIn p line k m ∧ m ≠ .outputCycle) ∨
        r = .badValue ∧ (∃ k, s.ownsIn p line k .outputCycle) ∧
          (2 < force.toNat ∨ s.time.len.toNat ≤ a.toNat ∨ s.time.len.toNat ≤ b.toNat)) →
      exec (.cycleStage p id line a b force) s = .next (s.answered p 0x35 id r (.stage line 0 false))) ∧
    ∀ k f, s.ownsIn p line k .outputCycle → a.toNat < s.time.len.toNat → b.toNat < s.time.len.toNat →
      ((s.line k).staged = none →
        exec (.cycleStage p id line a b (Force.code f)) s = .next (State.settle
          ((s.modLine k fun l => { l with staged := some ⟨⟨a, b, f⟩, some (p, id)⟩ }).modPort p fun q =>
            { q with lastEdge := some s.count.serial, deferred := q.deferred ++ [⟨0x35, id, .line k⟩] }))) ∧
      ∃ t, exec (.cycleStage p id line a b (Force.code f)) s = .next t ∧
        t.line k = { s.line k with staged := some ⟨⟨a, b, f⟩, some (p, id)⟩ } ∧ (∀ j, j ≠ k → t.line j = s.line j) ∧
        (t.port p).deferred.getLast? = some ⟨0x35, id, .line k⟩ ∧
        ∀ g q i d, (s.line k).staged = some g → g.stager = some (q, i) →
          (s.port q).deferred.find? (fun d => decide (d.owner = .line k)) = some d →
          ⟨d.kind, d.id, .superseded, .stage (lineByte k) 0 false, s.count.serial⟩ ∈ (t.port q).responses

/-! ### The journal (chapter 4) -/

/-- A level change that waits, the first of those that do, is taken (R66, R74, R78 to R81): the sample becomes the last sample;
with no subscribed open port nothing is stored; else a record of the count's time and the end's sync state is appended with
the counter's sequence number, the oldest record leaving a full list and each of its readers charged one missed record.
JOURNAL_READY is posted to each port whose unread or missed count leaves 0, unless an earlier capture of the count had such a
case for the port (R84, R85), be there a JOURNAL_READ between the two or not (R84 against R90: the model's choice, log 28).
Several changes of one count are taken in ascending line number (R79): a command that takes a
later one first takes the earlier ones, as their own commands would. -/
def Obligations.LevelChangeIsCapturedForItsSubscribers : Prop :=
  (∀ (s : State) (k : LineId) (e : Edge) (rest : List (LineId × Edge)), s.settled → s.count.changes = (k, e) :: rest →
    (∀ x ∈ rest, k < x.1) →
    (∀ p : PortId, (s.readersOf k).getLsbD p.val = (s.isOpen p && (s.subs p).getLsbD k.val)) ∧
    ∃ t r, exec (.lineLevelChange k e.level) s = .next t ∧ t.line k = { s.line k with last := some e.level } ∧
      (∀ j, j ≠ k → t.line j = s.line j) ∧ t.count.changes = rest ∧ t.time = s.time ∧ t.sync = s.sync ∧
      t.schedule = s.schedule ∧ t.plan = s.plan ∧
      r = ⟨s.journal.counter, k, e, s.time.t, s.time.frame, s.time.phase, s.sync.state, s.time.epoch, s.readersOf k,
        s.count.serial⟩ ∧
      (s.readersOf k = 0 → t.journal = s.journal ∧ t.notes = s.notes) ∧
      (s.readersOf k ≠ 0 → s.journal.records.length < 256 →
        t.journal.records = s.journal.records ++ [r] ∧ t.journal.missed = s.journal.missed ∧
        ∀ p : PortId, t.queue p =
          if (s.readersOf k).getLsbD p.val = true ∧ s.unread p = [] ∧ s.count.readyPosted.getLsbD p.val = false then
            (s.post p (.journalReady 1 (s.missed p))).queue p
          else s.queue p) ∧
      (s.readersOf k ≠ 0 → s.journal.records.length = 256 → ∀ o os, s.journal.records = o :: os →
        t.journal.records = os ++ [r] ∧
        (∀ p, t.missed p = if o.readers.getLsbD p.val = true then
            (if s.missed p < 65535 then s.missed p + 1 else s.missed p)
          else s.missed p) ∧
        ∀ p : PortId, t.queue p =
          if ((s.readersOf k).getLsbD p.val = true ∧ s.unread p = [] ∨ o.readers.getLsbD p.val = true ∧ s.missed p = 0) ∧
              s.count.readyPosted.getLsbD p.val = false then
            (s.post p (.journalReady ((os ++ [r]).filter fun r => r.readers.getLsbD p.val).length (t.missed p))).queue p
          else s.queue p) ∧
      (s.readersOf k ≠ 0 →
        t.journal.counter = advanceCounter (t.journal.records.map (·.sequence)) s.journal.counter) ∧
      ∀ p : PortId, t.count.readyPosted.getLsbD p.val = true ↔ s.count.readyPosted.getLsbD p.val = true ∨
        s.readersOf k ≠ 0 ∧ ((s.readersOf k).getLsbD p.val = true ∧ s.unread p = [] ∨
          256 ≤ s.journal.records.length ∧ s.missed p = 0 ∧
            ∃ o os, s.journal.records = o :: os ∧ o.readers.getLsbD p.val = true)) ∧
  ∀ (s u : State) (j k : LineId) (d e : Edge) (rest : List (LineId × Edge)), s.count.changes = (j, d) :: rest →
    (∀ x ∈ rest, j < x.1) → (k, e) ∈ rest → exec (.lineLevelChange j d.level) s = .next u →
    u.count.changes = rest ∧ exec (.lineLevelChange k e.level) s = exec (.lineLevelChange k e.level) u

/-- SUBSCRIBE (R86): the port's subscription set is replaced and the answer is OK with the new set; no record, missed count or
notification changes. -/
def Obligations.SubscribeReplacesTheSet : Prop :=
  ∀ (s : State) (p : PortId) (id : Byte) (x : LineSet), s.serving p →
    exec (.subscribe p id x) s = .next (s.setSubs p x |>.answered p 0x40 id .ok (.subscribed x))

/-- JOURNAL_READ (R88, R89): a maximum of 0 or above 6 is BAD_VALUE; else a GAP item first where records were missed, then the
oldest unread records up to the maximum; the port leaves the reader sets of the records sent, a record without readers
retires, and the missed count becomes 0. -/
def Obligations.JournalReadSendsGapAndOldestRecords : Prop :=
  ∀ (s : State) (p : PortId) (id maximum : Byte) (sent : List Record) (gap : List JournalItem), s.serving p →
    ((maximum.toNat = 0 ∨ 6 < maximum.toNat) →
      exec (.journalRead p id maximum) s = .next (s.answered p 0x41 id .badValue (.journal [] 0))) ∧
    (1 ≤ maximum.toNat → maximum.toNat ≤ 6 → gap = (if s.missed p = 0 then [] else [.gap (s.missed p)]) →
      sent = ((s.journal.records.filter fun r => r.readers.getLsbD p.val).take (maximum.toNat - gap.length)) →
      exec (.journalRead p id maximum) s = .next (State.settle (State.answered p 0x41 id .ok
        (.journal (gap ++ sent.map .capture)
          ((s.journal.records.filter fun r => r.readers.getLsbD p.val).length - sent.length))
        (s.setMissed p 0 |>.setRecords ((s.journal.records.map fun r =>
            if r.sequence ∈ sent.map (·.sequence) then { r with readers := r.readers &&& ~~~(1#4 <<< p.val) } else r).filter
          fun r => decide (r.readers ≠ 0))))))

/-! ### The sync unit (chapter 5) -/

/-- A recognised REFIN edge is handled (R94 to R97, R99, R100, R107), after the frame event of its count where that still waits
(R95, R108): `u` is the state with the frame event taken. In FREE the edge is discarded; after the first of a frame it is a
stray; else it is measured, with its error from the phase and L in use, the state change of R107, and the correction of R99
decided with the state left by the change. A state change that orders no step notifies every open session that enables it;
one that orders a step posts nothing in its count (a SYNC_CHANGE the count already posted follows its end, log 9). -/
def Obligations.RefinEdgeIsMeasuredOncePerFrame : Prop :=
  ∀ s u : State, s.count.refinEdge = true → u = s.takeFrameEvent →
    (s.count.raised = false → u = s) ∧
    (s.boundaryWaits = true → ∃ v, exec .frameBoundaryEvent s = .next v ∧ v = u.settle) ∧
    (s.backwardWaits = true → ∃ v, exec .backwardStep s = .next v ∧ v = u.settle) ∧
    ∃ t, exec .refinEdge s = .next t ∧ t.time = u.time ∧ t.count.refinEdge = false ∧ t.count.raised = false ∧
      t.schedule = u.schedule ∧ t.plan = u.plan ∧ t.lines = u.settle.lines ∧
      (u.sync.state = .free → t.sync = u.sync) ∧
      (u.sync.state ≠ .free → u.sync.measured = true → t.sync = { u.sync with
        strayCount := if u.sync.strayCount < 65535 then u.sync.strayCount + 1 else u.sync.strayCount }) ∧
      (u.sync.state ≠ .free → u.sync.measured = false → ∀ e : Int,
        e = (if u.time.phase.toNat ≤ u.time.len.toNat / 2 then (u.time.phase.toNat : Int)
          else (u.time.phase.toNat : Int) - u.time.len.toNat) →
        t.sync.lastE = e ∧ t.sync.missedRun = 0 ∧ t.sync.measured = true ∧ t.sync.strayCount = u.sync.strayCount ∧
        ((u.sync.state = .acquire ∨ u.sync.state = .realign) → e.natAbs ≤ 2 → u.sync.alignedRun < 3 →
          t.sync.state = u.sync.state ∧ t.sync.alignedRun = u.sync.alignedRun + 1) ∧
        ((u.sync.state = .acquire ∨ u.sync.state = .realign) → e.natAbs ≤ 2 → u.sync.alignedRun = 3 →
          t.sync.state = .locked ∧ t.sync.alignedRun = 0) ∧
        ((u.sync.state = .acquire ∨ u.sync.state = .realign) → 2 < e.natAbs →
          t.sync.state = u.sync.state ∧ t.sync.alignedRun = 0) ∧
        (u.sync.state = .locked → e.natAbs ≤ 2 →
          t.sync.state = .locked ∧ t.sync.alignedRun = u.sync.alignedRun) ∧
        (u.sync.state = .locked → 2 < e.natAbs → t.sync.state = .realign ∧ t.sync.alignedRun = 0) ∧
        (u.sync.state = .holdover → t.sync.state = .realign ∧ t.sync.holdoverCount = 0 ∧
          t.sync.alignedRun = if e.natAbs ≤ 2 then 1 else 0) ∧
        (u.plan.record.stepPolicy = .allowStep ∧ u.plan.record.slipWindow.toNat < e.natAbs →
          t.sync.c = 0 ∧ t.sync.stepOrder = some ⟨e, t.sync.state⟩ ∧
          (s.count.raised = false → s.settled → ∀ p,
            (∀ n ∈ (s.queue p).entries, n.stamp = s.count.serial → n.body.kind ≠ .syncChange) → t.queue p = s.queue p)) ∧
        (u.plan.record.stepPolicy = .noStep ∨ e.natAbs ≤ u.plan.record.slipWindow.toNat →
          t.sync.c = e ∧ t.sync.stepOrder = u.sync.stepOrder ∧
          (t.sync.state ≠ u.sync.state → u.count.syncPosted = false → ∀ p,
            u.noted t p (.syncChange t.sync.state t.time.epoch t.sync.lastE) ∧
            (s.count.raised = false → s.settled → s.isOpen p = true → (s.queue p).enable.getLsbD 2 = true →
              t.queue p = (s.post p (.syncChange t.sync.state t.time.epoch t.sync.lastE)).queue p))))

/-! ### The plan unit (chapter 6) -/

/-- PLAN_PROPOSE (R118, R119): busy, it is answered with the number of the proposal that stands; out of range, BAD_VALUE; else a
proposal is created with the counter's number, the other open ports as required voters, the vote window of the current plan,
and its request held deferred; with nobody to ask it is AGREED at once. -/
def Obligations.PlanProposeCreatesOneProposal : Prop :=
  ∀ (s : State) (p : PortId) (id : Byte) (f : PlanFields), s.serving p →
    (∀ x, s.plan.proposal = some x → exec (.planPropose p id f) s =
      .next (s.answered p 0x60 id .planBusy (.propose x.number none 0 0))) ∧
    (s.plan.proposal = none →
      (f.frameLength.toNat < 1000 ∨ 1 < f.refEnable.toNat ∨ f.slewLimit = 0 ∨ 1 < f.stepPolicy.toNat ∨ f.voteWindow = 0 ∨
        f.portQuota = 0 ∨ 128 < f.portQuota.toNat) →
      exec (.planPropose p id f) s = .next (s.answered p 0x60 id .badValue (.propose 0 none 0 0))) ∧
    ∀ (r : Plan) (required : PortSet), s.plan.proposal = none →
      f = ⟨r.frameLength, flagByte r.refEnable, r.slipWindow, r.slewLimit, r.stepPolicy.code, r.holdoverLimit, r.voteWindow,
        r.portQuota⟩ →
      1000 ≤ r.frameLength.toNat → r.slewLimit ≠ 0 → r.voteWindow ≠ 0 → r.portQuota ≠ 0 → r.portQuota.toNat ≤ 128 →
      (∀ q : PortId, required.getLsbD q.val = (decide (q ≠ p) && s.isOpen q)) →
      ∃ t, exec (.planPropose p id f) s = .next t ∧ t.plan.record = s.plan.record ∧ t.plan.number = s.plan.number ∧
        t.plan.proposal = some ⟨s.plan.counter, p, r, required, 0, s.plan.record.voteWindow.toNat,
          if required = 0 then .agreed else .voting, some (p, id)⟩ ∧
        t.plan.counter = (if s.plan.counter + 1 = 0 then 1 else s.plan.counter + 1) ∧
        (t.port p).deferred = (s.port p).deferred ++ [⟨0x60, id, .plan⟩] ∧
        (∀ q, (t.port q).responses = (s.port q).responses.map (Response.refresh t q)) ∧
        ∀ q, t.queue q = if required.getLsbD q.val = true then (s.post q (.planPending s.plan.counter p r)).queue q
          else s.queue q

/-- PLAN_VOTE (R121 to R123): the refusals in the order of the checks; an ACCEPT joins the accepted set and completes the
agreement when the sets are equal; a REJECT removes the proposal, answers the proposer REJECTED and tells the other voters. -/
def Obligations.PlanVoteAcceptsOrRejects : Prop :=
  ∀ (s : State) (p : PortId) (id : Byte) (n : BitVec 16), s.serving p →
    (∀ decision, decision ≠ 1 → decision ≠ 2 →
      exec (.planVote p id n decision) s = .next (s.answered p 0x61 id .badValue (.vote n none))) ∧
    (∀ decision r, (decision = 1 ∨ decision = 2) →
      (r = .staleVote ∧ (∀ x, s.plan.proposal = some x → x.number ≠ n) ∨
        (∃ x, s.plan.proposal = some x ∧ x.number = n ∧
          (r = .notVoter ∧ x.required.getLsbD p.val = false ∨
            x.required.getLsbD p.val = true ∧
              (r = .alreadyAgreed ∧ x.state = .agreed ∨
                r = .alreadyVoted ∧ x.state = .voting ∧ x.accepted.getLsbD p.val = true)))) →
      exec (.planVote p id n decision) s = .next (s.answered p 0x61 id r (.vote n none))) ∧
    ∀ x, s.plan.proposal = some x → x.number = n → x.required.getLsbD p.val = true → x.state = .voting →
      x.accepted.getLsbD p.val = false →
      (∀ accepted st, accepted = x.accepted ||| (1#4 <<< p.val) →
        st = (if accepted = x.required then ProposalState.agreed else .voting) →
        exec (.planVote p id n 1) s = .next (State.settle (State.answered p 0x61 id .ok (.vote n (some st))
          (s.setProposal (some { x with accepted := accepted, state := st }))))) ∧
      ∃ t, exec (.planVote p id n 2) s = .next t ∧ t.plan = { s.plan with proposal := none } ∧
        (t.port p).responses.getLast? = some ⟨0x61, id, .ok, .vote n none, s.count.serial⟩ ∧
        (∀ q i d, x.request = some (q, i) →
          (s.port q).deferred.find? (fun d => decide (d.owner = .plan)) = some d →
          ⟨d.kind, d.id, .rejected, .propose n (some p) 0 0, s.count.serial⟩ ∈ (t.port q).responses) ∧
        ∀ q, t.queue q = if x.required.getLsbD q.val = true ∧ q ≠ p then
          (s.post q (.planOutcome n .rejected)).queue q else s.queue q

/-- PLAN_WITHDRAW (R124): refused NOT_OWNER or ALREADY_AGREED it changes nothing else; accepted, the proposal is removed, the
proposer request is answered WITHDRAWN before the withdrawal's own OK, and every required voter is told. -/
def Obligations.PlanWithdrawRemovesTheProposal : Prop :=
  ∀ (s : State) (p : PortId) (id : Byte), s.serving p →
    ((∀ x, s.plan.proposal = some x → x.proposer ≠ p) →
      exec (.planWithdraw p id) s = .next (s.answered p 0x62 id .notOwner (.withdraw 0))) ∧
    ∀ x, s.plan.proposal = some x → x.proposer = p →
      (x.state = .agreed → exec (.planWithdraw p id) s =
        .next (s.answered p 0x62 id .alreadyAgreed (.withdraw x.number))) ∧
      (x.state = .voting → ∃ t, exec (.planWithdraw p id) s = .next t ∧ t.plan = { s.plan with proposal := none } ∧
        (t.port p).responses.getLast? = some ⟨0x62, id, .ok, .withdraw x.number, s.count.serial⟩ ∧
        (∀ q i d, x.request = some (q, i) →
          (s.port q).deferred.find? (fun d => decide (d.owner = .plan)) = some d →
          ⟨d.kind, d.id, .withdrawn, .propose x.number none 0 0, s.count.serial⟩ ∈ (t.port q).responses) ∧
        ∀ q, t.queue q = if x.required.getLsbD q.val = true then
          (s.post q (.planOutcome x.number .withdrawn)).queue q else s.queue q)

/-! ### Port sessions and the request link (chapter 7) -/

/-- The fall of CS_n (R136, R148): the oldest queued response is chosen, or EMPTY, completed with the flags and the more count of
the fall; the queue and the flags stay. MISO_n then carries the bytes of the chosen response from the first byte on, and 0xFF
after the last, each byte most significant bit first (R135; which bit stands between which edges of SCK_n: log 20). -/
def Obligations.SelectFallChoosesTheResponse : Prop :=
  ∀ (s : State) (p : PortId), s.settled → s.linkFree p → (s.port p).csLow = false → ∀ (c : Chosen) (flags : Byte),
    flags = statusFlags (s.isOpen p) (decide ((s.queue p).size ≠ 0)) (s.port p).overrun (s.port p).badFrame →
    ((s.port p).responses = [] ∧
        c = ⟨true, (s.port p).overrun, (s.port p).badFrame, responseBytes 0x00 0 .ok flags 0 []⟩ ∨
      ∃ r rest, (s.port p).responses = r :: rest ∧
        c = ⟨false, (s.port p).overrun, (s.port p).badFrame,
          responseBytes r.kind r.id r.result flags rest.length r.body.bytes⟩) →
    ∃ t, exec (.responseChoice p) s = .next t ∧
      t = s.modPort p (fun q => { q with lastEdge := some s.count.serial, csLow := true, chosen := some c }) ∧
      ∀ (n : Nat) (b : Byte), b = (if h : n < c.bytes.length then c.bytes[n] else 0xFF) →
        t.miso p n = some b ∧ t.misoBit p (8 * n) = some (b.getLsbD 7) ∧ t.misoBit p (8 * n + 1) = some (b.getLsbD 6) ∧
        t.misoBit p (8 * n + 2) = some (b.getLsbD 5) ∧ t.misoBit p (8 * n + 3) = some (b.getLsbD 4) ∧
        t.misoBit p (8 * n + 4) = some (b.getLsbD 3) ∧ t.misoBit p (8 * n + 5) = some (b.getLsbD 2) ∧
        t.misoBit p (8 * n + 6) = some (b.getLsbD 1) ∧ t.misoBit p (8 * n + 7) = some (b.getLsbD 0)

/-- The rise of CS_n (R138 to R142): a full transfer removes the queued response and clears the flags its header carried, a short
one changes nothing; MISO_n is no longer driven, and it has carried one bit for each MOSI bit, which read most significant bit
first are the chosen response's bytes and then 0xFF (R135; the record of them is the model's own, log 20); then no complete byte carries no request, a request that fails framing
sets BAD_FRAME, NONE asks for nothing, and any other request is taken as its own command takes it. -/
def Obligations.SelectRiseSettlesThenTakes : Prop :=
  ∀ (s : State) (p : PortId) (mosi : List Bool) (c : Chosen) (n : Nat) (u : State), s.settled → s.linkFree p →
    (s.port p).csLow = true → (s.port p).chosen = some c → n = (bytesOfBits mosi).length →
    u = s.modPort p (fun q => { q with
      csLow := false
      chosen := none
      misoSent := (List.range mosi.length).map fun k => (c.bytes.getD (k / 8) 0xFF).getMsbD (k % 8)
      responses := if c.bytes.length ≤ n ∧ c.empty = false then q.responses.tail else q.responses
      overrun := if c.bytes.length ≤ n ∧ c.overrun = true then false else q.overrun
      badFrame := if c.bytes.length ≤ n ∧ c.badFrame = true then false else q.badFrame }) →
    u.misoUndriven p ∧
    bytesOfBits (u.port p).misoSent = c.bytes.take n ++ List.replicate (n - c.bytes.length) 0xFF ∧
    (n = 0 → exec (.transactionEnd p mosi) s = .next (u.marked p)) ∧
    (n ≠ 0 → parseFrame p (bytesOfBits mosi) = none → exec (.transactionEnd p mosi) s =
      .next ((u.marked p).modPort p fun q => { q with badFrame := true })) ∧
    ∀ i, parseFrame p (bytesOfBits mosi) = some i → exec (.transactionEnd p mosi) s = exec i u

/-- A message that passes framing is a well-formed request, and its bytes are those the request is made of, with whatever
follows them ignored; and a well-formed request, made into a message and sent bit by bit with anything after it, decodes to
that request: no bit of a request is dropped (R140, R141, R169 to R171). -/
def Obligations.RequestMessagesRoundTrip : Prop :=
  (∀ (p : PortId) (bytes : List Byte) (c : Instr), parseFrame p bytes = some c → c.wf = true ∧
    ∃ kind id body extra, requestFields c = some (p, kind, id, body) ∧ bytes = frameBytes kind id body ++ extra) ∧
  ∀ (c : Instr) (p : PortId) (kind id : Byte) (body : List Byte), c.wf = true →
    requestFields c = some (p, kind, id, body) → ∀ extra : List Byte,
      parseFrame p (bytesOfBits (bitsOfBytes (frameBytes kind id body ++ extra))) = some c

/-- A NONE request is taken and asks for nothing, on an open port or a closed one and whatever the pending count; MOSI_n held at
0 for four bytes or more is such a request. That the link has handled an edge in its count is the model's own mark (log 4). -/
def Obligations.NoneAsksForNothing : Prop :=
  (∀ (s : State) (p : PortId) (id : Byte), exec (.noneRequest p id) s = .next (s.linkCount p).settle) ∧
  (∀ (s : State) (p : PortId) (id : Byte), s.settled → s.linkFree p → exec (.noneRequest p id) s = .next (s.marked p)) ∧
  crc8 [0, 0, 0] = 0 ∧
  ∀ (p : PortId) (n : Nat), 4 ≤ n → parseFrame p (bytesOfBits (List.replicate (8 * n) false)) = some (.noneRequest p 0)

/-- The gate (R143, R144): at the pending limit a request is discarded and OVERRUN is set; below it an unknown kind is answered
UNKNOWN_KIND in either session state, and on a closed port every request but OPEN and STATUS_READ is answered NO_SESSION. -/
def Obligations.GateRefusesAtLimitUnknownAndClosed : Prop :=
  ∀ (s : State) (p : PortId) (c : Instr) (kind id : Byte) (body : List Byte), s.settled → s.linkFree p →
    requestFields c = some (p, kind, id, body) → kind ≠ 0x00 →
    (8 ≤ s.pendingCount p → exec c s = .next ((s.marked p).modPort p fun q => { q with overrun := true })) ∧
    (s.pendingCount p < 8 → c = .unknownKind p kind id body →
      exec c s = .next (s.answered p kind id .unknownKind .empty)) ∧
    (s.pendingCount p < 8 → s.isOpen p = false → c ≠ .unknownKind p kind id body → kind ≠ 0x01 → kind ≠ 0x03 →
      exec c s = .next (s.answered p kind id .noSession .empty))

/-- Log 3, log 4 and log 15 (model's choices): a request or an edge of CS_n whose port has used the count in progress, or that
comes before any count, is taken in the next count (R135, R144, R151); an input command whose edge does not wait begins the next count with that level and takes
the edge where that count recognises it. -/
def Obligations.CommandsBeginACountWhereNoneIsFree : Prop :=
  (∀ (s : State) (p : PortId) (c : Instr) (kind id : Byte) (body : List Byte), s.handles p = true →
    requestFields c = some (p, kind, id, body) →
    (s.count.running = false ∨ (s.port p).lastEdge = some s.count.serial) →
    (s.port p).lastEdge ≠ some (s.count.serial + 1) → exec c s = exec c s.nextCount) ∧
  (∀ (s : State) (p : PortId), s.handles p = true →
    (s.count.running = false ∨ (s.port p).lastEdge = some s.count.serial) →
    (s.port p).lastEdge ≠ some (s.count.serial + 1) →
    ((s.port p).csLow = false → exec (.responseChoice p) s = exec (.responseChoice p) s.nextCount) ∧
    ((s.port p).csLow = true → ∀ mosi, exec (.transactionEnd p mosi) s = exec (.transactionEnd p mosi) s.nextCount)) ∧
  (∀ s : State, s.count.refinEdge = false →
    exec .refinEdge s = if (s.beginCount .high s.lineIn).count.refinEdge = true then
        exec .refinEdge (s.beginCount .high s.lineIn)
      else exec (.cclkCount .high s.lineIn) s) ∧
  ∀ (s : State) (k : LineId) (v : Level) (x : LineSet), (k, edgeTo v) ∉ s.count.changes →
    x = (match v with
      | .high => s.lineIn ||| (1#16 <<< k.val)
      | .low => s.lineIn &&& ~~~(1#16 <<< k.val)) →
    exec (.lineLevelChange k v) s = if (k, edgeTo v) ∈ (s.beginCount s.refinIn x).count.changes then
        exec (.lineLevelChange k v) (s.beginCount s.refinIn x)
      else exec (.cclkCount s.refinIn x) s

/-- OPEN (R149): on an open port ALREADY_OPEN, with an enable bit of no kind BAD_VALUE, each changing nothing else; accepted, the
session opens with the next number, and the enable set and the subscription set are taken; every answer carries the session
number and the plan number and sync state of the end of the count. -/
def Obligations.OpenStartsASession : Prop :=
  ∀ (s : State) (p : PortId) (id : Byte) (enable : BitVec 16) (x : LineSet), s.canTake p → s.settled →
    (s.isOpen p = true → exec (.openSession p id enable x) s =
      .next (s.answered p 0x01 id .alreadyOpen (.opened p (s.port p).session s.plan.number s.sync.state))) ∧
    (s.isOpen p = false → enable.extractLsb' 8 8 ≠ 0 → exec (.openSession p id enable x) s =
      .next (s.answered p 0x01 id .badValue (.opened p (s.port p).session s.plan.number s.sync.state))) ∧
    (s.isOpen p = false → enable.extractLsb' 8 8 = 0 → exec (.openSession p id enable x) s =
      .next (State.settle (State.answered p 0x01 id .ok
        (.opened p ((s.port p).session + 1) s.plan.number s.sync.state)
        (State.setSubs p x (State.modQueue p (fun q => { q with enable := enable.extractLsb' 0 8 })
          (s.modPort p fun q => { q with isOpen := true, session := q.session + 1 }))))))

/-- A session end by CLOSE or PRST_n at the link, the queue and the blocks it does not reach (R1, R93, R114, R150 to R152, R155,
R167): the port is CLOSED with no deferred request; after CLOSE the only response is its own OK; the notification queue and
its enable set are empty and ATTN_n is high; the time base, the sync unit and the plan in force stay; every other port is
posted INPUT_STOPPED for each INPUT line freed that it subscribes to (R68, R70; in ascending line order, log 12), then, as a
voter of a VOTING proposal of the port, its withdrawal (R130), and nothing else. -/
def Obligations.SessionEndClosesTheLink : Prop :=
  ∀ (s : State) (p : PortId) (c : Instr), s.endsSession p c → ∃ t, exec c s = .next t ∧
    t.isOpen p = false ∧ (t.port p).session = (s.port p).session ∧ (t.port p).deferred = [] ∧
    (∀ id, c = .closeSession p id →
      (t.port p).responses = [⟨0x02, id, .ok, .closed (s.port p).session, s.count.serial⟩] ∧
        (t.port p).overrun = (s.port p).overrun ∧ (t.port p).badFrame = (s.port p).badFrame) ∧
    (c = .prstAssert p → (t.port p).responses = [] ∧ (t.port p).overrun = false ∧ (t.port p).badFrame = false ∧
      (t.port p).chosen = none) ∧
    t.queue p = { s.queue p with entries := [], overflow := none, enable := 0 } ∧ t.outputs.attn[p] = .high ∧
    t.time = s.time ∧ t.sync = s.sync ∧ t.plan.record = s.plan.record ∧ t.plan.number = s.plan.number ∧
    t.plan.counter = s.plan.counter ∧ (∀ q, q ≠ p → t.isOpen q = s.isOpen q) ∧
    ∀ q : PortId, q ≠ p → ∀ withdrawn : List NoteBody,
      ((∃ x, s.plan.proposal = some x ∧ x.proposer = p ∧ x.state = .voting ∧ x.required.getLsbD q.val = true ∧
          withdrawn = [.planOutcome x.number .withdrawn]) ∨
        (∀ x, s.plan.proposal = some x → x.proposer = p → x.state = .voting → x.required.getLsbD q.val = false) ∧
          withdrawn = []) →
      t.queue q = s.queueAfter q (((allLines.filter fun k =>
        decide (s.freedFor p k ∧ (s.line k).mode = .input ∧ (s.subs q).getLsbD k.val = true)).map .inputStopped) ++ withdrawn)

/-- A session end by CLOSE or PRST_n at the lines, the schedule, the journal and the proposal (R46, R47, R69, R70, R91, R129,
R130): retained lines keep everything but owner and stager, and their entries become orphans; the other lines of the port
go OFF and free, and their entries leave the list; the port leaves every reader set and its records retire; a proposal of
its own in VOTING goes, an AGREED one stays without its request, and one it votes on loses its vote. -/
def Obligations.SessionEndReachesEveryBlock : Prop :=
  ∀ (s : State) (p : PortId) (c : Instr), s.endsSession p c → ∃ t, exec c s = .next t ∧
    (∀ k, s.retainedFor p k → t.line k = { s.line k with
      owner := none, staged := (s.line k).staged.map fun g => { g with stager := none } }) ∧
    (∀ k, s.freedFor p k → t.line k = { s.line k with
      mode := .off, owner := none, retain := false, driven := none, last := none, active := none, staged := none }) ∧
    (∀ k, (s.line k).owner ≠ some p → t.line k = s.line k) ∧
    t.schedule = { s.schedule with
      entries := (s.schedule.entries.filter fun x => !decide (s.freedFor p x.line)).map fun x =>
        if s.retainedFor p x.line then { x with owner := none, notify := false } else x } ∧
    t.journal.records = ((s.journal.records.map fun r => { r with readers := r.readers &&& ~~~(1#4 <<< p.val) }).filter
      fun r => decide (r.readers ≠ 0)) ∧
    t.journal.counter = s.journal.counter ∧ t.subs p = 0 ∧ t.missed p = 0 ∧
    (∀ q, q ≠ p → t.subs q = s.subs q ∧ t.missed q = s.missed q) ∧
    (s.plan.proposal = none → t.plan = s.plan) ∧
    ∀ x, s.plan.proposal = some x →
      (x.proposer = p → x.state = .voting → t.plan.proposal = none) ∧
      (x.proposer = p → x.state = .agreed → t.plan.proposal = some { x with request := none }) ∧
      (x.proposer ≠ p → x.required.getLsbD p.val = false → t.plan.proposal = some x) ∧
      (x.proposer ≠ p → x.required.getLsbD p.val = true → ∀ req acc, req = x.required &&& ~~~(1#4 <<< p.val) →
        acc = x.accepted &&& ~~~(1#4 <<< p.val) →
        t.plan.proposal = some { x with
          required := req, accepted := acc, state := if acc = req then .agreed else x.state })

/-! ### Notifications (chapter 8) -/

/-- NOTE_ACK (R164): an entry that carries the number is removed, whatever its place, and the answer is OK with the number and the
entries left; where none carries it the answer is NOT_CURRENT and nothing else changes. (The marks of the count are the
model's own: log 4, log 18.) -/
def Obligations.NoteAckRemovesByCurrentNumber : Prop :=
  ∀ (s : State) (p : PortId) (id : Byte) (n : BitVec 16), s.serving p →
    ((∀ x ∈ (s.queue p).entries, x.number ≠ n) → (∀ o, (s.queue p).overflow = some o → o.number ≠ n) →
      exec (.noteAck p id n) s = .next (s.answered p 0x51 id .notCurrent (.ack n (s.queue p).size))) ∧
    (((∃ x ∈ (s.queue p).entries, x.number = n) ∨ ∃ o, (s.queue p).overflow = some o ∧ o.number = n) →
      ∀ q : NoteQueue, q = { s.queue p with
          entries := (s.queue p).entries.filter fun x => decide (x.number ≠ n)
          overflow := (s.queue p).overflow.filter fun o => decide (o.number ≠ n) } →
        exec (.noteAck p id n) s = .next (State.settle (State.answered p 0x51 id .ok (.ack n q.size)
          (s.modQueue p fun _ => q))))

/-- A post (R158 to R162): discarded on a closed port or where its kind is not enabled; else a coalescing kind already queued
re-fires its entry in place; else it is placed after the ordinary entries while fewer than 15 stand; else it is counted in the
OVERFLOW entry. The number given is the counter's, and the counter moves on past 0 and the numbers queued. -/
def Obligations.PostsAreQueuedFoldedOrCounted : Prop :=
  ∀ (s : State) (p : PortId) (b : NoteBody),
    ((s.isOpen p = false ∨ (s.queue p).enable.getLsbD b.kind.bit = false) → s.post p b = s) ∧
    (s.isOpen p = true → (s.queue p).enable.getLsbD b.kind.bit = true → ∀ q q' : NoteQueue, q = s.queue p →
      (((b.kind = .journalReady ∨ b.kind = .syncChange) ∧ (∃ n ∈ q.entries, n.body.kind = b.kind) ∧
          q' = { q with entries := q.entries.map fun n => if n.body.kind = b.kind then
            ⟨q.counter, b, if n.repeats < 255 then n.repeats + 1 else n.repeats, s.count.serial⟩ else n } ∨
        ((b.kind ≠ .journalReady ∧ b.kind ≠ .syncChange) ∨ ∀ n ∈ q.entries, n.body.kind ≠ b.kind) ∧
          (q.entries.length < 15 ∧ q' = { q with entries := q.entries ++
              [⟨q.counter, b, if b.kind = .journalReady ∨ b.kind = .syncChange then 1 else 0, s.count.serial⟩] } ∨
            15 ≤ q.entries.length ∧ q.overflow = none ∧ q' = { q with overflow := some ⟨q.counter, 1, 1⟩ } ∨
            15 ≤ q.entries.length ∧ ∃ o, q.overflow = some o ∧
              q' = { q with
                overflow := some ⟨q.counter, if o.lost < 65535 then o.lost + 1 else o.lost,
                  if o.repeats < 255 then o.repeats + 1 else o.repeats⟩ }))) →
      s.post p b = s.modQueue p fun _ => { q' with counter := advanceCounter q'.numbers q.counter })

/-! ### Invariants that every step keeps -/

/-- The lists and queues never exceed their capacities: 128 entries, 256 records, 15 ordinary notifications and 8 pending
requests of each port (R22, R76, R143, R155); and with them the action numbers of the entries and the sequence numbers of the
records stay distinct and not 0, and the counters at numbers not in use (R19, R75). -/
def Obligations.StepKeepsCapacities : Prop :=
  (∀ s t : State, s.withinCapacity → step s = .next t → t.withinCapacity) ∧
  ∀ s t : State, s.withinCapacity → s.numbersDistinct → step s = .next t → t.numbersDistinct

/-- The phase stays below L in use, L in use is the frame length of the plan record, and both are at least 1,000 (R6). -/
def Obligations.StepKeepsTheFrameInRange : Prop :=
  ∀ s t : State, s.frameInRange → step s = .next t → t.frameInRange

/-- Every schedule entry names an OUTPUT_EVENT line and has its line's owner, an unowned line is OFF or retained, and every owner
has an open session (R23, R52). -/
def Obligations.StepKeepsOwnersInAgreement : Prop :=
  ∀ s t : State, s.ownersAgree → step s = .next t → t.ownersAgree

/-- The list of the schedule stays in order (R21, R33, R38 to R40; the reference of the count is log 13), and at the end of every
count the effective times are each ahead of T by at least 1 and at most 2^40 + 2^24 counts and do not decrease from the head
of the list to its tail (R21). -/
def Obligations.StepKeepsTheListInOrder : Prop :=
  (∀ s t : State, s.listInOrder → step s = .next t → t.listInOrder) ∧
  ∀ s : State, s.listInOrder →
    (∀ x ∈ s.endCount.schedule.entries,
      1 ≤ forward s.endCount.time.t x.effective ∧ forward s.endCount.time.t x.effective ≤ 2 ^ 40 + 2 ^ 24) ∧
    s.endCount.schedule.entries.Pairwise fun x y =>
      forward s.endCount.time.t x.effective ≤ forward s.endCount.time.t y.effective
end

