-- ==== Sys2Proof/Laws/State.lean ====
section
/-! SUPPORT. One lemma per field per update: the fields of State that an update leaves alone, and the value of the one it
sets. Every lemma holds by unfolding the update. -/

namespace Sys2Proof.Machine.State

variable (s : State)

/-! ### modPort -/

@[simp] theorem modPort_pending (p : PortId) (f : Port → Port) : (s.modPort p f).pending = s.pending := rfl
@[simp] theorem modPort_resetLow (p : PortId) (f : Port → Port) : (s.modPort p f).resetLow = s.resetLow := rfl
@[simp] theorem modPort_straps (p : PortId) (f : Port → Port) : (s.modPort p f).straps = s.straps := rfl
@[simp] theorem modPort_refinIn (p : PortId) (f : Port → Port) : (s.modPort p f).refinIn = s.refinIn := rfl
@[simp] theorem modPort_lineIn (p : PortId) (f : Port → Port) : (s.modPort p f).lineIn = s.lineIn := rfl
@[simp] theorem modPort_time (p : PortId) (f : Port → Port) : (s.modPort p f).time = s.time := rfl
@[simp] theorem modPort_sync (p : PortId) (f : Port → Port) : (s.modPort p f).sync = s.sync := rfl
@[simp] theorem modPort_schedule (p : PortId) (f : Port → Port) : (s.modPort p f).schedule = s.schedule := rfl
@[simp] theorem modPort_lines (p : PortId) (f : Port → Port) : (s.modPort p f).lines = s.lines := rfl
@[simp] theorem modPort_journal (p : PortId) (f : Port → Port) : (s.modPort p f).journal = s.journal := rfl
@[simp] theorem modPort_plan (p : PortId) (f : Port → Port) : (s.modPort p f).plan = s.plan := rfl
@[simp] theorem modPort_ports (p : PortId) (f : Port → Port) : (s.modPort p f).ports = s.ports.set p (f s.ports[p]) := rfl
@[simp] theorem modPort_notes (p : PortId) (f : Port → Port) : (s.modPort p f).notes = s.notes := rfl
@[simp] theorem modPort_count (p : PortId) (f : Port → Port) : (s.modPort p f).count = s.count := rfl
@[simp] theorem modPort_outputs (p : PortId) (f : Port → Port) : (s.modPort p f).outputs = s.outputs := rfl

/-! ### modLine -/

@[simp] theorem modLine_pending (k : LineId) (f : Line → Line) : (s.modLine k f).pending = s.pending := rfl
@[simp] theorem modLine_resetLow (k : LineId) (f : Line → Line) : (s.modLine k f).resetLow = s.resetLow := rfl
@[simp] theorem modLine_straps (k : LineId) (f : Line → Line) : (s.modLine k f).straps = s.straps := rfl
@[simp] theorem modLine_refinIn (k : LineId) (f : Line → Line) : (s.modLine k f).refinIn = s.refinIn := rfl
@[simp] theorem modLine_lineIn (k : LineId) (f : Line → Line) : (s.modLine k f).lineIn = s.lineIn := rfl
@[simp] theorem modLine_time (k : LineId) (f : Line → Line) : (s.modLine k f).time = s.time := rfl
@[simp] theorem modLine_sync (k : LineId) (f : Line → Line) : (s.modLine k f).sync = s.sync := rfl
@[simp] theorem modLine_schedule (k : LineId) (f : Line → Line) : (s.modLine k f).schedule = s.schedule := rfl
@[simp] theorem modLine_lines (k : LineId) (f : Line → Line) : (s.modLine k f).lines = s.lines.set k (f s.lines[k]) := rfl
@[simp] theorem modLine_journal (k : LineId) (f : Line → Line) : (s.modLine k f).journal = s.journal := rfl
@[simp] theorem modLine_plan (k : LineId) (f : Line → Line) : (s.modLine k f).plan = s.plan := rfl
@[simp] theorem modLine_ports (k : LineId) (f : Line → Line) : (s.modLine k f).ports = s.ports := rfl
@[simp] theorem modLine_notes (k : LineId) (f : Line → Line) : (s.modLine k f).notes = s.notes := rfl
@[simp] theorem modLine_count (k : LineId) (f : Line → Line) : (s.modLine k f).count = s.count := rfl
@[simp] theorem modLine_outputs (k : LineId) (f : Line → Line) : (s.modLine k f).outputs = s.outputs := rfl

/-! ### modQueue -/

@[simp] theorem modQueue_pending (p : PortId) (f : NoteQueue → NoteQueue) : (s.modQueue p f).pending = s.pending := rfl
@[simp] theorem modQueue_resetLow (p : PortId) (f : NoteQueue → NoteQueue) : (s.modQueue p f).resetLow = s.resetLow := rfl
@[simp] theorem modQueue_straps (p : PortId) (f : NoteQueue → NoteQueue) : (s.modQueue p f).straps = s.straps := rfl
@[simp] theorem modQueue_refinIn (p : PortId) (f : NoteQueue → NoteQueue) : (s.modQueue p f).refinIn = s.refinIn := rfl
@[simp] theorem modQueue_lineIn (p : PortId) (f : NoteQueue → NoteQueue) : (s.modQueue p f).lineIn = s.lineIn := rfl
@[simp] theorem modQueue_time (p : PortId) (f : NoteQueue → NoteQueue) : (s.modQueue p f).time = s.time := rfl
@[simp] theorem modQueue_sync (p : PortId) (f : NoteQueue → NoteQueue) : (s.modQueue p f).sync = s.sync := rfl
@[simp] theorem modQueue_schedule (p : PortId) (f : NoteQueue → NoteQueue) : (s.modQueue p f).schedule = s.schedule := rfl
@[simp] theorem modQueue_lines (p : PortId) (f : NoteQueue → NoteQueue) : (s.modQueue p f).lines = s.lines := rfl
@[simp] theorem modQueue_journal (p : PortId) (f : NoteQueue → NoteQueue) : (s.modQueue p f).journal = s.journal := rfl
@[simp] theorem modQueue_plan (p : PortId) (f : NoteQueue → NoteQueue) : (s.modQueue p f).plan = s.plan := rfl
@[simp] theorem modQueue_ports (p : PortId) (f : NoteQueue → NoteQueue) : (s.modQueue p f).ports = s.ports := rfl
@[simp] theorem modQueue_notes (p : PortId) (f : NoteQueue → NoteQueue) : (s.modQueue p f).notes = s.notes.set p (f s.notes[p]) := rfl
@[simp] theorem modQueue_count (p : PortId) (f : NoteQueue → NoteQueue) : (s.modQueue p f).count = s.count := rfl
@[simp] theorem modQueue_outputs (p : PortId) (f : NoteQueue → NoteQueue) : (s.modQueue p f).outputs = s.outputs := rfl

/-! ### setSubs -/

@[simp] theorem setSubs_pending (p : PortId) (x : LineSet) : (s.setSubs p x).pending = s.pending := rfl
@[simp] theorem setSubs_resetLow (p : PortId) (x : LineSet) : (s.setSubs p x).resetLow = s.resetLow := rfl
@[simp] theorem setSubs_straps (p : PortId) (x : LineSet) : (s.setSubs p x).straps = s.straps := rfl
@[simp] theorem setSubs_refinIn (p : PortId) (x : LineSet) : (s.setSubs p x).refinIn = s.refinIn := rfl
@[simp] theorem setSubs_lineIn (p : PortId) (x : LineSet) : (s.setSubs p x).lineIn = s.lineIn := rfl
@[simp] theorem setSubs_time (p : PortId) (x : LineSet) : (s.setSubs p x).time = s.time := rfl
@[simp] theorem setSubs_sync (p : PortId) (x : LineSet) : (s.setSubs p x).sync = s.sync := rfl
@[simp] theorem setSubs_schedule (p : PortId) (x : LineSet) : (s.setSubs p x).schedule = s.schedule := rfl
@[simp] theorem setSubs_lines (p : PortId) (x : LineSet) : (s.setSubs p x).lines = s.lines := rfl
@[simp] theorem setSubs_journal (p : PortId) (x : LineSet) : (s.setSubs p x).journal = ⟨s.journal.records, s.journal.counter, s.journal.subs.set p x, s.journal.missed⟩ := rfl
@[simp] theorem setSubs_plan (p : PortId) (x : LineSet) : (s.setSubs p x).plan = s.plan := rfl
@[simp] theorem setSubs_ports (p : PortId) (x : LineSet) : (s.setSubs p x).ports = s.ports := rfl
@[simp] theorem setSubs_notes (p : PortId) (x : LineSet) : (s.setSubs p x).notes = s.notes := rfl
@[simp] theorem setSubs_count (p : PortId) (x : LineSet) : (s.setSubs p x).count = s.count := rfl
@[simp] theorem setSubs_outputs (p : PortId) (x : LineSet) : (s.setSubs p x).outputs = s.outputs := rfl

/-! ### setMissed -/

@[simp] theorem setMissed_pending (p : PortId) (n : Nat) : (s.setMissed p n).pending = s.pending := rfl
@[simp] theorem setMissed_resetLow (p : PortId) (n : Nat) : (s.setMissed p n).resetLow = s.resetLow := rfl
@[simp] theorem setMissed_straps (p : PortId) (n : Nat) : (s.setMissed p n).straps = s.straps := rfl
@[simp] theorem setMissed_refinIn (p : PortId) (n : Nat) : (s.setMissed p n).refinIn = s.refinIn := rfl
@[simp] theorem setMissed_lineIn (p : PortId) (n : Nat) : (s.setMissed p n).lineIn = s.lineIn := rfl
@[simp] theorem setMissed_time (p : PortId) (n : Nat) : (s.setMissed p n).time = s.time := rfl
@[simp] theorem setMissed_sync (p : PortId) (n : Nat) : (s.setMissed p n).sync = s.sync := rfl
@[simp] theorem setMissed_schedule (p : PortId) (n : Nat) : (s.setMissed p n).schedule = s.schedule := rfl
@[simp] theorem setMissed_lines (p : PortId) (n : Nat) : (s.setMissed p n).lines = s.lines := rfl
@[simp] theorem setMissed_journal (p : PortId) (n : Nat) : (s.setMissed p n).journal = ⟨s.journal.records, s.journal.counter, s.journal.subs, s.journal.missed.set p n⟩ := rfl
@[simp] theorem setMissed_plan (p : PortId) (n : Nat) : (s.setMissed p n).plan = s.plan := rfl
@[simp] theorem setMissed_ports (p : PortId) (n : Nat) : (s.setMissed p n).ports = s.ports := rfl
@[simp] theorem setMissed_notes (p : PortId) (n : Nat) : (s.setMissed p n).notes = s.notes := rfl
@[simp] theorem setMissed_count (p : PortId) (n : Nat) : (s.setMissed p n).count = s.count := rfl
@[simp] theorem setMissed_outputs (p : PortId) (n : Nat) : (s.setMissed p n).outputs = s.outputs := rfl

/-! ### setRecords -/

@[simp] theorem setRecords_pending (rs : List Record) : (s.setRecords rs).pending = s.pending := rfl
@[simp] theorem setRecords_resetLow (rs : List Record) : (s.setRecords rs).resetLow = s.resetLow := rfl
@[simp] theorem setRecords_straps (rs : List Record) : (s.setRecords rs).straps = s.straps := rfl
@[simp] theorem setRecords_refinIn (rs : List Record) : (s.setRecords rs).refinIn = s.refinIn := rfl
@[simp] theorem setRecords_lineIn (rs : List Record) : (s.setRecords rs).lineIn = s.lineIn := rfl
@[simp] theorem setRecords_time (rs : List Record) : (s.setRecords rs).time = s.time := rfl
@[simp] theorem setRecords_sync (rs : List Record) : (s.setRecords rs).sync = s.sync := rfl
@[simp] theorem setRecords_schedule (rs : List Record) : (s.setRecords rs).schedule = s.schedule := rfl
@[simp] theorem setRecords_lines (rs : List Record) : (s.setRecords rs).lines = s.lines := rfl
@[simp] theorem setRecords_journal (rs : List Record) : (s.setRecords rs).journal = ⟨rs, s.journal.counter, s.journal.subs, s.journal.missed⟩ := rfl
@[simp] theorem setRecords_plan (rs : List Record) : (s.setRecords rs).plan = s.plan := rfl
@[simp] theorem setRecords_ports (rs : List Record) : (s.setRecords rs).ports = s.ports := rfl
@[simp] theorem setRecords_notes (rs : List Record) : (s.setRecords rs).notes = s.notes := rfl
@[simp] theorem setRecords_count (rs : List Record) : (s.setRecords rs).count = s.count := rfl
@[simp] theorem setRecords_outputs (rs : List Record) : (s.setRecords rs).outputs = s.outputs := rfl

/-! ### setEntries -/

@[simp] theorem setEntries_pending (es : List Entry) : (s.setEntries es).pending = s.pending := rfl
@[simp] theorem setEntries_resetLow (es : List Entry) : (s.setEntries es).resetLow = s.resetLow := rfl
@[simp] theorem setEntries_straps (es : List Entry) : (s.setEntries es).straps = s.straps := rfl
@[simp] theorem setEntries_refinIn (es : List Entry) : (s.setEntries es).refinIn = s.refinIn := rfl
@[simp] theorem setEntries_lineIn (es : List Entry) : (s.setEntries es).lineIn = s.lineIn := rfl
@[simp] theorem setEntries_time (es : List Entry) : (s.setEntries es).time = s.time := rfl
@[simp] theorem setEntries_sync (es : List Entry) : (s.setEntries es).sync = s.sync := rfl
@[simp] theorem setEntries_schedule (es : List Entry) : (s.setEntries es).schedule = ⟨es, s.schedule.counter⟩ := rfl
@[simp] theorem setEntries_lines (es : List Entry) : (s.setEntries es).lines = s.lines := rfl
@[simp] theorem setEntries_journal (es : List Entry) : (s.setEntries es).journal = s.journal := rfl
@[simp] theorem setEntries_plan (es : List Entry) : (s.setEntries es).plan = s.plan := rfl
@[simp] theorem setEntries_ports (es : List Entry) : (s.setEntries es).ports = s.ports := rfl
@[simp] theorem setEntries_notes (es : List Entry) : (s.setEntries es).notes = s.notes := rfl
@[simp] theorem setEntries_count (es : List Entry) : (s.setEntries es).count = s.count := rfl
@[simp] theorem setEntries_outputs (es : List Entry) : (s.setEntries es).outputs = s.outputs := rfl

/-! ### setProposal -/

@[simp] theorem setProposal_pending (x : Option Proposal) : (s.setProposal x).pending = s.pending := rfl
@[simp] theorem setProposal_resetLow (x : Option Proposal) : (s.setProposal x).resetLow = s.resetLow := rfl
@[simp] theorem setProposal_straps (x : Option Proposal) : (s.setProposal x).straps = s.straps := rfl
@[simp] theorem setProposal_refinIn (x : Option Proposal) : (s.setProposal x).refinIn = s.refinIn := rfl
@[simp] theorem setProposal_lineIn (x : Option Proposal) : (s.setProposal x).lineIn = s.lineIn := rfl
@[simp] theorem setProposal_time (x : Option Proposal) : (s.setProposal x).time = s.time := rfl
@[simp] theorem setProposal_sync (x : Option Proposal) : (s.setProposal x).sync = s.sync := rfl
@[simp] theorem setProposal_schedule (x : Option Proposal) : (s.setProposal x).schedule = s.schedule := rfl
@[simp] theorem setProposal_lines (x : Option Proposal) : (s.setProposal x).lines = s.lines := rfl
@[simp] theorem setProposal_journal (x : Option Proposal) : (s.setProposal x).journal = s.journal := rfl
@[simp] theorem setProposal_plan (x : Option Proposal) : (s.setProposal x).plan = ⟨s.plan.record, s.plan.number, x, s.plan.counter⟩ := rfl
@[simp] theorem setProposal_ports (x : Option Proposal) : (s.setProposal x).ports = s.ports := rfl
@[simp] theorem setProposal_notes (x : Option Proposal) : (s.setProposal x).notes = s.notes := rfl
@[simp] theorem setProposal_count (x : Option Proposal) : (s.setProposal x).count = s.count := rfl
@[simp] theorem setProposal_outputs (x : Option Proposal) : (s.setProposal x).outputs = s.outputs := rfl

/-! ### modSync -/

@[simp] theorem modSync_pending (f : SyncUnit → SyncUnit) : (s.modSync f).pending = s.pending := rfl
@[simp] theorem modSync_resetLow (f : SyncUnit → SyncUnit) : (s.modSync f).resetLow = s.resetLow := rfl
@[simp] theorem modSync_straps (f : SyncUnit → SyncUnit) : (s.modSync f).straps = s.straps := rfl
@[simp] theorem modSync_refinIn (f : SyncUnit → SyncUnit) : (s.modSync f).refinIn = s.refinIn := rfl
@[simp] theorem modSync_lineIn (f : SyncUnit → SyncUnit) : (s.modSync f).lineIn = s.lineIn := rfl
@[simp] theorem modSync_time (f : SyncUnit → SyncUnit) : (s.modSync f).time = s.time := rfl
@[simp] theorem modSync_sync (f : SyncUnit → SyncUnit) : (s.modSync f).sync = f s.sync := rfl
@[simp] theorem modSync_schedule (f : SyncUnit → SyncUnit) : (s.modSync f).schedule = s.schedule := rfl
@[simp] theorem modSync_lines (f : SyncUnit → SyncUnit) : (s.modSync f).lines = s.lines := rfl
@[simp] theorem modSync_journal (f : SyncUnit → SyncUnit) : (s.modSync f).journal = s.journal := rfl
@[simp] theorem modSync_plan (f : SyncUnit → SyncUnit) : (s.modSync f).plan = s.plan := rfl
@[simp] theorem modSync_ports (f : SyncUnit → SyncUnit) : (s.modSync f).ports = s.ports := rfl
@[simp] theorem modSync_notes (f : SyncUnit → SyncUnit) : (s.modSync f).notes = s.notes := rfl
@[simp] theorem modSync_count (f : SyncUnit → SyncUnit) : (s.modSync f).count = s.count := rfl
@[simp] theorem modSync_outputs (f : SyncUnit → SyncUnit) : (s.modSync f).outputs = s.outputs := rfl

/-! ### modTime -/

@[simp] theorem modTime_pending (f : TimeBase → TimeBase) : (s.modTime f).pending = s.pending := rfl
@[simp] theorem modTime_resetLow (f : TimeBase → TimeBase) : (s.modTime f).resetLow = s.resetLow := rfl
@[simp] theorem modTime_straps (f : TimeBase → TimeBase) : (s.modTime f).straps = s.straps := rfl
@[simp] theorem modTime_refinIn (f : TimeBase → TimeBase) : (s.modTime f).refinIn = s.refinIn := rfl
@[simp] theorem modTime_lineIn (f : TimeBase → TimeBase) : (s.modTime f).lineIn = s.lineIn := rfl
@[simp] theorem modTime_time (f : TimeBase → TimeBase) : (s.modTime f).time = f s.time := rfl
@[simp] theorem modTime_sync (f : TimeBase → TimeBase) : (s.modTime f).sync = s.sync := rfl
@[simp] theorem modTime_schedule (f : TimeBase → TimeBase) : (s.modTime f).schedule = s.schedule := rfl
@[simp] theorem modTime_lines (f : TimeBase → TimeBase) : (s.modTime f).lines = s.lines := rfl
@[simp] theorem modTime_journal (f : TimeBase → TimeBase) : (s.modTime f).journal = s.journal := rfl
@[simp] theorem modTime_plan (f : TimeBase → TimeBase) : (s.modTime f).plan = s.plan := rfl
@[simp] theorem modTime_ports (f : TimeBase → TimeBase) : (s.modTime f).ports = s.ports := rfl
@[simp] theorem modTime_notes (f : TimeBase → TimeBase) : (s.modTime f).notes = s.notes := rfl
@[simp] theorem modTime_count (f : TimeBase → TimeBase) : (s.modTime f).count = s.count := rfl
@[simp] theorem modTime_outputs (f : TimeBase → TimeBase) : (s.modTime f).outputs = s.outputs := rfl

/-! ### modCount -/

@[simp] theorem modCount_pending (f : Count → Count) : (s.modCount f).pending = s.pending := rfl
@[simp] theorem modCount_resetLow (f : Count → Count) : (s.modCount f).resetLow = s.resetLow := rfl
@[simp] theorem modCount_straps (f : Count → Count) : (s.modCount f).straps = s.straps := rfl
@[simp] theorem modCount_refinIn (f : Count → Count) : (s.modCount f).refinIn = s.refinIn := rfl
@[simp] theorem modCount_lineIn (f : Count → Count) : (s.modCount f).lineIn = s.lineIn := rfl
@[simp] theorem modCount_time (f : Count → Count) : (s.modCount f).time = s.time := rfl
@[simp] theorem modCount_sync (f : Count → Count) : (s.modCount f).sync = s.sync := rfl
@[simp] theorem modCount_schedule (f : Count → Count) : (s.modCount f).schedule = s.schedule := rfl
@[simp] theorem modCount_lines (f : Count → Count) : (s.modCount f).lines = s.lines := rfl
@[simp] theorem modCount_journal (f : Count → Count) : (s.modCount f).journal = s.journal := rfl
@[simp] theorem modCount_plan (f : Count → Count) : (s.modCount f).plan = s.plan := rfl
@[simp] theorem modCount_ports (f : Count → Count) : (s.modCount f).ports = s.ports := rfl
@[simp] theorem modCount_notes (f : Count → Count) : (s.modCount f).notes = s.notes := rfl
@[simp] theorem modCount_count (f : Count → Count) : (s.modCount f).count = f s.count := rfl
@[simp] theorem modCount_outputs (f : Count → Count) : (s.modCount f).outputs = s.outputs := rfl

/-! ### drivePins -/

@[simp] theorem drivePins_pending (v : Level) (x : LineSet) : (s.drivePins v x).pending = s.pending := rfl
@[simp] theorem drivePins_resetLow (v : Level) (x : LineSet) : (s.drivePins v x).resetLow = s.resetLow := rfl
@[simp] theorem drivePins_straps (v : Level) (x : LineSet) : (s.drivePins v x).straps = s.straps := rfl
@[simp] theorem drivePins_refinIn (v : Level) (x : LineSet) : (s.drivePins v x).refinIn = v := rfl
@[simp] theorem drivePins_lineIn (v : Level) (x : LineSet) : (s.drivePins v x).lineIn = x := rfl
@[simp] theorem drivePins_time (v : Level) (x : LineSet) : (s.drivePins v x).time = s.time := rfl
@[simp] theorem drivePins_sync (v : Level) (x : LineSet) : (s.drivePins v x).sync = s.sync := rfl
@[simp] theorem drivePins_schedule (v : Level) (x : LineSet) : (s.drivePins v x).schedule = s.schedule := rfl
@[simp] theorem drivePins_lines (v : Level) (x : LineSet) : (s.drivePins v x).lines = s.lines := rfl
@[simp] theorem drivePins_journal (v : Level) (x : LineSet) : (s.drivePins v x).journal = s.journal := rfl
@[simp] theorem drivePins_plan (v : Level) (x : LineSet) : (s.drivePins v x).plan = s.plan := rfl
@[simp] theorem drivePins_ports (v : Level) (x : LineSet) : (s.drivePins v x).ports = s.ports := rfl
@[simp] theorem drivePins_notes (v : Level) (x : LineSet) : (s.drivePins v x).notes = s.notes := rfl
@[simp] theorem drivePins_count (v : Level) (x : LineSet) : (s.drivePins v x).count = s.count := rfl
@[simp] theorem drivePins_outputs (v : Level) (x : LineSet) : (s.drivePins v x).outputs = s.outputs := rfl

/-! ### respond -/

@[simp] theorem respond_pending (p : PortId) (k i : Byte) (r : Result) (b : Body) : (s.respond p k i r b).pending = s.pending := rfl
@[simp] theorem respond_resetLow (p : PortId) (k i : Byte) (r : Result) (b : Body) : (s.respond p k i r b).resetLow = s.resetLow := rfl
@[simp] theorem respond_straps (p : PortId) (k i : Byte) (r : Result) (b : Body) : (s.respond p k i r b).straps = s.straps := rfl
@[simp] theorem respond_refinIn (p : PortId) (k i : Byte) (r : Result) (b : Body) : (s.respond p k i r b).refinIn = s.refinIn := rfl
@[simp] theorem respond_lineIn (p : PortId) (k i : Byte) (r : Result) (b : Body) : (s.respond p k i r b).lineIn = s.lineIn := rfl
@[simp] theorem respond_time (p : PortId) (k i : Byte) (r : Result) (b : Body) : (s.respond p k i r b).time = s.time := rfl
@[simp] theorem respond_sync (p : PortId) (k i : Byte) (r : Result) (b : Body) : (s.respond p k i r b).sync = s.sync := rfl
@[simp] theorem respond_schedule (p : PortId) (k i : Byte) (r : Result) (b : Body) : (s.respond p k i r b).schedule = s.schedule := rfl
@[simp] theorem respond_lines (p : PortId) (k i : Byte) (r : Result) (b : Body) : (s.respond p k i r b).lines = s.lines := rfl
@[simp] theorem respond_journal (p : PortId) (k i : Byte) (r : Result) (b : Body) : (s.respond p k i r b).journal = s.journal := rfl
@[simp] theorem respond_plan (p : PortId) (k i : Byte) (r : Result) (b : Body) : (s.respond p k i r b).plan = s.plan := rfl
@[simp] theorem respond_notes (p : PortId) (k i : Byte) (r : Result) (b : Body) : (s.respond p k i r b).notes = s.notes := rfl
@[simp] theorem respond_count (p : PortId) (k i : Byte) (r : Result) (b : Body) : (s.respond p k i r b).count = s.count := rfl
@[simp] theorem respond_outputs (p : PortId) (k i : Byte) (r : Result) (b : Body) : (s.respond p k i r b).outputs = s.outputs := rfl

/-! ### hold -/

@[simp] theorem hold_pending (p : PortId) (k i : Byte) (o : DeferredOwner) : (s.hold p k i o).pending = s.pending := rfl
@[simp] theorem hold_resetLow (p : PortId) (k i : Byte) (o : DeferredOwner) : (s.hold p k i o).resetLow = s.resetLow := rfl
@[simp] theorem hold_straps (p : PortId) (k i : Byte) (o : DeferredOwner) : (s.hold p k i o).straps = s.straps := rfl
@[simp] theorem hold_refinIn (p : PortId) (k i : Byte) (o : DeferredOwner) : (s.hold p k i o).refinIn = s.refinIn := rfl
@[simp] theorem hold_lineIn (p : PortId) (k i : Byte) (o : DeferredOwner) : (s.hold p k i o).lineIn = s.lineIn := rfl
@[simp] theorem hold_time (p : PortId) (k i : Byte) (o : DeferredOwner) : (s.hold p k i o).time = s.time := rfl
@[simp] theorem hold_sync (p : PortId) (k i : Byte) (o : DeferredOwner) : (s.hold p k i o).sync = s.sync := rfl
@[simp] theorem hold_schedule (p : PortId) (k i : Byte) (o : DeferredOwner) : (s.hold p k i o).schedule = s.schedule := rfl
@[simp] theorem hold_lines (p : PortId) (k i : Byte) (o : DeferredOwner) : (s.hold p k i o).lines = s.lines := rfl
@[simp] theorem hold_journal (p : PortId) (k i : Byte) (o : DeferredOwner) : (s.hold p k i o).journal = s.journal := rfl
@[simp] theorem hold_plan (p : PortId) (k i : Byte) (o : DeferredOwner) : (s.hold p k i o).plan = s.plan := rfl
@[simp] theorem hold_notes (p : PortId) (k i : Byte) (o : DeferredOwner) : (s.hold p k i o).notes = s.notes := rfl
@[simp] theorem hold_count (p : PortId) (k i : Byte) (o : DeferredOwner) : (s.hold p k i o).count = s.count := rfl
@[simp] theorem hold_outputs (p : PortId) (k i : Byte) (o : DeferredOwner) : (s.hold p k i o).outputs = s.outputs := rfl

/-! ### bumpActions -/

@[simp] theorem bumpActions_pending : (s.bumpActions).pending = s.pending := rfl
@[simp] theorem bumpActions_resetLow : (s.bumpActions).resetLow = s.resetLow := rfl
@[simp] theorem bumpActions_straps : (s.bumpActions).straps = s.straps := rfl
@[simp] theorem bumpActions_refinIn : (s.bumpActions).refinIn = s.refinIn := rfl
@[simp] theorem bumpActions_lineIn : (s.bumpActions).lineIn = s.lineIn := rfl
@[simp] theorem bumpActions_time : (s.bumpActions).time = s.time := rfl
@[simp] theorem bumpActions_sync : (s.bumpActions).sync = s.sync := rfl
@[simp] theorem bumpActions_schedule : (s.bumpActions).schedule = ⟨s.schedule.entries, advanceCounter s.numbers s.schedule.counter⟩ := rfl
@[simp] theorem bumpActions_lines : (s.bumpActions).lines = s.lines := rfl
@[simp] theorem bumpActions_journal : (s.bumpActions).journal = s.journal := rfl
@[simp] theorem bumpActions_plan : (s.bumpActions).plan = s.plan := rfl
@[simp] theorem bumpActions_ports : (s.bumpActions).ports = s.ports := rfl
@[simp] theorem bumpActions_notes : (s.bumpActions).notes = s.notes := rfl
@[simp] theorem bumpActions_count : (s.bumpActions).count = s.count := rfl
@[simp] theorem bumpActions_outputs : (s.bumpActions).outputs = s.outputs := rfl

/-! ### bumpProposals -/

@[simp] theorem bumpProposals_pending : (s.bumpProposals).pending = s.pending := rfl
@[simp] theorem bumpProposals_resetLow : (s.bumpProposals).resetLow = s.resetLow := rfl
@[simp] theorem bumpProposals_straps : (s.bumpProposals).straps = s.straps := rfl
@[simp] theorem bumpProposals_refinIn : (s.bumpProposals).refinIn = s.refinIn := rfl
@[simp] theorem bumpProposals_lineIn : (s.bumpProposals).lineIn = s.lineIn := rfl
@[simp] theorem bumpProposals_time : (s.bumpProposals).time = s.time := rfl
@[simp] theorem bumpProposals_sync : (s.bumpProposals).sync = s.sync := rfl
@[simp] theorem bumpProposals_schedule : (s.bumpProposals).schedule = s.schedule := rfl
@[simp] theorem bumpProposals_lines : (s.bumpProposals).lines = s.lines := rfl
@[simp] theorem bumpProposals_journal : (s.bumpProposals).journal = s.journal := rfl
@[simp] theorem bumpProposals_plan : (s.bumpProposals).plan = ⟨s.plan.record, s.plan.number, s.plan.proposal, advanceCounter [] s.plan.counter⟩ := rfl
@[simp] theorem bumpProposals_ports : (s.bumpProposals).ports = s.ports := rfl
@[simp] theorem bumpProposals_notes : (s.bumpProposals).notes = s.notes := rfl
@[simp] theorem bumpProposals_count : (s.bumpProposals).count = s.count := rfl
@[simp] theorem bumpProposals_outputs : (s.bumpProposals).outputs = s.outputs := rfl

/-! ### markReady -/

@[simp] theorem markReady_pending (p : PortId) : (s.markReady p).pending = s.pending := rfl
@[simp] theorem markReady_resetLow (p : PortId) : (s.markReady p).resetLow = s.resetLow := rfl
@[simp] theorem markReady_straps (p : PortId) : (s.markReady p).straps = s.straps := rfl
@[simp] theorem markReady_refinIn (p : PortId) : (s.markReady p).refinIn = s.refinIn := rfl
@[simp] theorem markReady_lineIn (p : PortId) : (s.markReady p).lineIn = s.lineIn := rfl
@[simp] theorem markReady_time (p : PortId) : (s.markReady p).time = s.time := rfl
@[simp] theorem markReady_sync (p : PortId) : (s.markReady p).sync = s.sync := rfl
@[simp] theorem markReady_schedule (p : PortId) : (s.markReady p).schedule = s.schedule := rfl
@[simp] theorem markReady_lines (p : PortId) : (s.markReady p).lines = s.lines := rfl
@[simp] theorem markReady_journal (p : PortId) : (s.markReady p).journal = s.journal := rfl
@[simp] theorem markReady_plan (p : PortId) : (s.markReady p).plan = s.plan := rfl
@[simp] theorem markReady_ports (p : PortId) : (s.markReady p).ports = s.ports := rfl
@[simp] theorem markReady_notes (p : PortId) : (s.markReady p).notes = s.notes := rfl
@[simp] theorem markReady_count (p : PortId) : (s.markReady p).count = { s.count with readyPosted := withPort s.count.readyPosted p } := rfl
@[simp] theorem markReady_outputs (p : PortId) : (s.markReady p).outputs = s.outputs := rfl

/-! ### useCount -/

@[simp] theorem useCount_pending (p : PortId) : (s.useCount p).pending = s.pending := rfl
@[simp] theorem useCount_resetLow (p : PortId) : (s.useCount p).resetLow = s.resetLow := rfl
@[simp] theorem useCount_straps (p : PortId) : (s.useCount p).straps = s.straps := rfl
@[simp] theorem useCount_refinIn (p : PortId) : (s.useCount p).refinIn = s.refinIn := rfl
@[simp] theorem useCount_lineIn (p : PortId) : (s.useCount p).lineIn = s.lineIn := rfl
@[simp] theorem useCount_time (p : PortId) : (s.useCount p).time = s.time := rfl
@[simp] theorem useCount_sync (p : PortId) : (s.useCount p).sync = s.sync := rfl
@[simp] theorem useCount_schedule (p : PortId) : (s.useCount p).schedule = s.schedule := rfl
@[simp] theorem useCount_lines (p : PortId) : (s.useCount p).lines = s.lines := rfl
@[simp] theorem useCount_journal (p : PortId) : (s.useCount p).journal = s.journal := rfl
@[simp] theorem useCount_plan (p : PortId) : (s.useCount p).plan = s.plan := rfl
@[simp] theorem useCount_ports (p : PortId) : (s.useCount p).ports = s.ports.set p { s.ports[p] with lastEdge := some s.count.serial } := rfl
@[simp] theorem useCount_notes (p : PortId) : (s.useCount p).notes = s.notes := rfl
@[simp] theorem useCount_count (p : PortId) : (s.useCount p).count = s.count := rfl
@[simp] theorem useCount_outputs (p : PortId) : (s.useCount p).outputs = s.outputs := rfl

/-! ### resetRelease -/

@[simp] theorem resetRelease_pending : (s.resetRelease).pending = s.pending := rfl
@[simp] theorem resetRelease_resetLow : (s.resetRelease).resetLow = false := rfl
@[simp] theorem resetRelease_straps : (s.resetRelease).straps = s.straps := rfl
@[simp] theorem resetRelease_refinIn : (s.resetRelease).refinIn = s.refinIn := rfl
@[simp] theorem resetRelease_lineIn : (s.resetRelease).lineIn = s.lineIn := rfl
@[simp] theorem resetRelease_time : (s.resetRelease).time = s.time := rfl
@[simp] theorem resetRelease_sync : (s.resetRelease).sync = s.sync := rfl
@[simp] theorem resetRelease_schedule : (s.resetRelease).schedule = s.schedule := rfl
@[simp] theorem resetRelease_lines : (s.resetRelease).lines = s.lines := rfl
@[simp] theorem resetRelease_journal : (s.resetRelease).journal = s.journal := rfl
@[simp] theorem resetRelease_plan : (s.resetRelease).plan = s.plan := rfl
@[simp] theorem resetRelease_ports : (s.resetRelease).ports = s.ports := rfl
@[simp] theorem resetRelease_notes : (s.resetRelease).notes = s.notes := rfl
@[simp] theorem resetRelease_count : (s.resetRelease).count = s.count := rfl
@[simp] theorem resetRelease_outputs : (s.resetRelease).outputs = s.outputs := rfl

/-! ### settle -/

@[simp] theorem settle_pending : (s.settle).pending = s.pending := rfl
@[simp] theorem settle_resetLow : (s.settle).resetLow = s.resetLow := rfl
@[simp] theorem settle_straps : (s.settle).straps = s.straps := rfl
@[simp] theorem settle_refinIn : (s.settle).refinIn = s.refinIn := rfl
@[simp] theorem settle_lineIn : (s.settle).lineIn = s.lineIn := rfl
@[simp] theorem settle_time : (s.settle).time = s.time := rfl
@[simp] theorem settle_sync : (s.settle).sync = s.sync := rfl
@[simp] theorem settle_schedule : (s.settle).schedule = s.schedule := rfl
@[simp] theorem settle_lines : (s.settle).lines = mapVector (Line.atPhase s.time.phase) s.lines := rfl
@[simp] theorem settle_plan : (s.settle).plan = s.plan := rfl
@[simp] theorem settle_count : (s.settle).count = s.count := rfl

end Sys2Proof.Machine.State
end

