-- ==== Sys2Proof/Laws/Ops.lean ====
section
/-! SUPPORT. What the shared operations of Machine/Ops.lean do: access after an update, operations over all ports and
lines, answers, deferred answers, posts, and the gate of the request link. -/

namespace Sys2Proof.Machine

/-! ### Vectors -/

@[simp] theorem mapVector_getElem {α β : Type} {n : Nat} (f : α → β) (v : Vector α n) (i : Nat) (h : i < n) :
    (mapVector f v)[i] = f v[i] := by
  simp [mapVector, Vector.getElem_mk, Vector.getElem_toList]

theorem mapVector_get {α β : Type} {n : Nat} (f : α → β) (v : Vector α n) (i : Fin n) :
    (mapVector f v)[i] = f v[i] := mapVector_getElem f v i.val i.isLt

theorem vector_ext_fin {α : Type} {n : Nat} {v w : Vector α n} (h : ∀ i : Fin n, v[i] = w[i]) : v = w :=
  Vector.ext fun i hi => h ⟨i, hi⟩

theorem mapVector_mapVector {α β γ : Type} {n : Nat} (g : β → γ) (f : α → β) (v : Vector α n) :
    mapVector g (mapVector f v) = mapVector (fun x => g (f x)) v := vector_ext_fin fun i => by simp only [mapVector_get]

theorem mapVector_congr {α β : Type} {n : Nat} {f g : α → β} (h : ∀ x, f x = g x) (v : Vector α n) :
    mapVector f v = mapVector g v := vector_ext_fin fun i => by simp only [mapVector_get, h]

theorem vector_set_get_same {α : Type} {n : Nat} (v : Vector α n) (i : Fin n) (x : α) : (v.set i x)[i] = x := by
  simp

theorem vector_set_get {α : Type} {n : Nat} (v : Vector α n) (i j : Fin n) (x : α) :
    (v.set i x)[j] = if i = j then x else v[j] := by
  simp [Vector.getElem_set, Fin.ext_iff]

theorem vector_set_get_ne {α : Type} {n : Nat} (v : Vector α n) {i j : Fin n} (x : α) (h : i ≠ j) :
    (v.set i x)[j] = v[j] := by simp only [vector_set_get, if_neg h]

theorem vector_set_set {α : Type} {n : Nat} (v : Vector α n) (i : Fin n) (x y : α) :
    (v.set i x).set i y = v.set i y := vector_ext_fin fun j => by
  simp only [vector_set_get]; split <;> rfl

theorem vector_set_self {α : Type} {n : Nat} (v : Vector α n) (i : Fin n) : v.set i v[i] = v := vector_ext_fin fun j => by
  simp only [vector_set_get]; split
  · next h => rw [h]
  · rfl

/-! ### The HELD check (R32) -/

theorem heldPasses_iff (st : SyncState) (cls : SyncClass) : heldPasses st cls = true ↔ heldAllows cls st := by
  cases cls <;> cases st <;> decide

/-! ### Access after an update -/

namespace State

variable (s : State)

@[simp] theorem port_modPort_same (p : PortId) (f : Port → Port) : (s.modPort p f).port p = f (s.port p) :=
  vector_set_get_same _ _ _
theorem port_modPort_ne {p q : PortId} (f : Port → Port) (h : p ≠ q) : (s.modPort p f).port q = s.port q :=
  vector_set_get_ne _ _ h
theorem port_modPort (p q : PortId) (f : Port → Port) :
    (s.modPort p f).port q = if p = q then f (s.port p) else s.port q := vector_set_get _ _ _ _
@[simp] theorem line_modLine_same (k : LineId) (f : Line → Line) : (s.modLine k f).line k = f (s.line k) :=
  vector_set_get_same _ _ _
theorem line_modLine_ne {k j : LineId} (f : Line → Line) (h : k ≠ j) : (s.modLine k f).line j = s.line j :=
  vector_set_get_ne _ _ h
theorem line_modLine (k j : LineId) (f : Line → Line) :
    (s.modLine k f).line j = if k = j then f (s.line k) else s.line j := vector_set_get _ _ _ _
@[simp] theorem queue_modQueue_same (p : PortId) (f : NoteQueue → NoteQueue) : (s.modQueue p f).queue p = f (s.queue p) :=
  vector_set_get_same _ _ _
theorem queue_modQueue_ne {p q : PortId} (f : NoteQueue → NoteQueue) (h : p ≠ q) : (s.modQueue p f).queue q = s.queue q :=
  vector_set_get_ne _ _ h
theorem queue_modQueue (p q : PortId) (f : NoteQueue → NoteQueue) :
    (s.modQueue p f).queue q = if p = q then f (s.queue p) else s.queue q := vector_set_get _ _ _ _

@[simp] theorem port_modLine (k : LineId) (f : Line → Line) (p : PortId) : (s.modLine k f).port p = s.port p := rfl
@[simp] theorem port_modQueue (q : PortId) (f : NoteQueue → NoteQueue) (p : PortId) : (s.modQueue q f).port p = s.port p := rfl
@[simp] theorem port_setSubs (q : PortId) (x : LineSet) (p : PortId) : (s.setSubs q x).port p = s.port p := rfl
@[simp] theorem port_setMissed (q : PortId) (n : Nat) (p : PortId) : (s.setMissed q n).port p = s.port p := rfl
@[simp] theorem port_setRecords (rs : List Record) (p : PortId) : (s.setRecords rs).port p = s.port p := rfl
@[simp] theorem port_setEntries (es : List Entry) (p : PortId) : (s.setEntries es).port p = s.port p := rfl
@[simp] theorem port_setProposal (x : Option Proposal) (p : PortId) : (s.setProposal x).port p = s.port p := rfl
@[simp] theorem port_modSync (f : SyncUnit → SyncUnit) (p : PortId) : (s.modSync f).port p = s.port p := rfl
@[simp] theorem port_modTime (f : TimeBase → TimeBase) (p : PortId) : (s.modTime f).port p = s.port p := rfl
@[simp] theorem port_modCount (f : Count → Count) (p : PortId) : (s.modCount f).port p = s.port p := rfl
@[simp] theorem port_bumpActions (p : PortId) : s.bumpActions.port p = s.port p := rfl
@[simp] theorem port_bumpProposals (p : PortId) : s.bumpProposals.port p = s.port p := rfl
@[simp] theorem line_modPort (p : PortId) (f : Port → Port) (k : LineId) : (s.modPort p f).line k = s.line k := rfl
@[simp] theorem line_modQueue (p : PortId) (f : NoteQueue → NoteQueue) (k : LineId) : (s.modQueue p f).line k = s.line k := rfl
@[simp] theorem line_setEntries (es : List Entry) (k : LineId) : (s.setEntries es).line k = s.line k := rfl
@[simp] theorem line_bumpActions (k : LineId) : s.bumpActions.line k = s.line k := rfl
@[simp] theorem queue_modPort (q : PortId) (f : Port → Port) (p : PortId) : (s.modPort q f).queue p = s.queue p := rfl
@[simp] theorem queue_modLine (k : LineId) (f : Line → Line) (p : PortId) : (s.modLine k f).queue p = s.queue p := rfl
@[simp] theorem queue_setEntries (es : List Entry) (p : PortId) : (s.setEntries es).queue p = s.queue p := rfl
@[simp] theorem queue_bumpActions (p : PortId) : s.bumpActions.queue p = s.queue p := rfl

theorem isOpen_modPort_same (p : PortId) (f : Port → Port) : (s.modPort p f).isOpen p = (f (s.port p)).isOpen := by
  simp [isOpen]

/-! ### Two updates of one thing -/

theorem modPort_modPort (p : PortId) (f g : Port → Port) : (s.modPort p f).modPort p g = s.modPort p fun q => g (f q) := by
  simp only [modPort, vector_set_get_same, vector_set_set]

theorem modLine_modLine (k : LineId) (f g : Line → Line) : (s.modLine k f).modLine k g = s.modLine k fun l => g (f l) := by
  simp only [modLine, vector_set_get_same, vector_set_set]

theorem modQueue_modQueue (p : PortId) (f g : NoteQueue → NoteQueue) :
    (s.modQueue p f).modQueue p g = s.modQueue p fun q => g (f q) := by
  simp only [modQueue, vector_set_get_same, vector_set_set]

theorem modPort_eq_self (p : PortId) (f : Port → Port) (h : f (s.port p) = s.port p) : s.modPort p f = s := by
  have : s.ports.set p (f s.ports[p]) = s.ports := by
    have h' : f s.ports[p] = s.ports[p] := h
    rw [h', vector_set_self]
  simp only [modPort, this]

theorem modLine_eq_self (k : LineId) (f : Line → Line) (h : f (s.line k) = s.line k) : s.modLine k f = s := by
  have : s.lines.set k (f s.lines[k]) = s.lines := by
    have h' : f s.lines[k] = s.lines[k] := h
    rw [h', vector_set_self]
  simp only [modLine, this]

/-- Two changes of one thing that agree on what stands there. -/
theorem modPort_congr (p : PortId) {f g : Port → Port} (h : f (s.port p) = g (s.port p)) : s.modPort p f = s.modPort p g := by
  have h' : f s.ports[p] = g s.ports[p] := h
  simp only [modPort, h']

theorem modLine_congr (k : LineId) {f g : Line → Line} (h : f (s.line k) = g (s.line k)) : s.modLine k f = s.modLine k g := by
  have h' : f s.lines[k] = g s.lines[k] := h
  simp only [modLine, h']

theorem modQueue_congr (p : PortId) {f g : NoteQueue → NoteQueue} (h : f (s.queue p) = g (s.queue p)) :
    s.modQueue p f = s.modQueue p g := by
  have h' : f s.notes[p] = g s.notes[p] := h
  simp only [modQueue, h']

/-- A level handed to an OUTPUT_EVENT line becomes its driven level (R60). -/
theorem handLevel_event (k : LineId) (v : Level) (h : (s.line k).mode = .outputEvent) :
    s.handLevel k v = s.modLine k (Line.drivenAt (some v)) := modLine_congr s k (by simp [h, Line.drivenAt])

/-- The leading action of a kind on an OUTPUT_EVENT line (R31). -/
theorem lead_event (k : LineId) (kd : ActionKind) (h : (s.line k).mode = .outputEvent) :
    s.lead k kd = s.modLine k (Line.drivenAt (s.leadingLevel k kd)) := by
  unfold lead
  rw [handLevel_event s k _ h]
  cases kd <;> simp only [ActionKind.leading, leadingLevel]
  cases hd : (s.line k).driven with
  | none => rfl
  | some v => cases v <;> rfl

/-- The trailing action of a kind on an OUTPUT_EVENT line (R31). -/
theorem trail_event (k : LineId) (kd : ActionKind) (h : (s.line k).mode = .outputEvent) {v : Level}
    (hv : trailingLevel kd = some v) : s.trail k kd = s.modLine k (Line.drivenAt (some v)) := by
  cases kd <;> cases hv <;> exact handLevel_event s k _ h

/-! ### Answers -/

theorem marked_respond (p : PortId) (k i : Byte) (r : Result) (b : Body) :
    (s.marked p).respond p k i r b = s.answered p k i r b := by
  simp only [marked, useCount, respond, answered, modPort_modPort, modPort_count]

@[simp] theorem marked_time (p : PortId) : (s.marked p).time = s.time := rfl
@[simp] theorem marked_sync (p : PortId) : (s.marked p).sync = s.sync := rfl
@[simp] theorem marked_schedule (p : PortId) : (s.marked p).schedule = s.schedule := rfl
@[simp] theorem marked_lines (p : PortId) : (s.marked p).lines = s.lines := rfl
@[simp] theorem marked_journal (p : PortId) : (s.marked p).journal = s.journal := rfl
@[simp] theorem marked_plan (p : PortId) : (s.marked p).plan = s.plan := rfl
@[simp] theorem marked_notes (p : PortId) : (s.marked p).notes = s.notes := rfl
@[simp] theorem marked_count (p : PortId) : (s.marked p).count = s.count := rfl
@[simp] theorem marked_line (p : PortId) (k : LineId) : (s.marked p).line k = s.line k := rfl
@[simp] theorem marked_queue (p q : PortId) : (s.marked p).queue q = s.queue q := rfl
theorem marked_port (p q : PortId) :
    (s.marked p).port q = if p = q then { s.port p with lastEdge := some s.count.serial } else s.port q :=
  port_modPort _ _ _ _
@[simp] theorem marked_isOpen (p q : PortId) : (s.marked p).isOpen q = s.isOpen q := by
  simp only [isOpen, marked_port]; split
  · next h => rw [h]
  · rfl
@[simp] theorem marked_handles (p q : PortId) : (s.marked p).handles q = s.handles q := by
  simp only [handles, marked_port]; split
  · next h => rw [h]; rfl
  · rfl
@[simp] theorem marked_pendingCount (p q : PortId) : (s.marked p).pendingCount q = s.pendingCount q := by
  simp only [pendingCount, marked_port]; split
  · next h => rw [h]
  · rfl

/-! ### The gate of the request link (R143, R144) -/

/-- The count of a port's link event, when the port has not used the count in progress. -/
theorem linkCount_free {s : State} {p : PortId} (h : s.handles p = true) (hr : s.count.running = true)
    (he : (s.port p).lastEdge ≠ some s.count.serial) : s.linkCount p = s.marked p := by
  simp [linkCount, h, hr, he]

theorem linkCount_of_canTake {s : State} {p : PortId} (h : s.canTake p) : s.linkCount p = s.marked p :=
  linkCount_free h.1 h.2.1 h.2.2.1

/-- A request that passes the gate is handled by its block. -/
theorem take_open {s : State} {p : PortId} (k i : Byte) (n : Bool) (op : State → State) (h : s.canTake p)
    (ho : s.isOpen p = true) : (s.marked p).take p k i n op = op (s.marked p) := by
  have h1 := h.1
  have h4 := h.2.2.2
  simp [take, h1, ho, Nat.not_le.mpr h4]

theorem take_closed {s : State} {p : PortId} (k i : Byte) (op : State → State) (h : s.canTake p)
    (ho : s.isOpen p = false) : (s.marked p).take p k i true op = s.answered p k i .noSession .empty := by
  have h1 := h.1
  have h4 := h.2.2.2
  simp [take, h1, ho, Nat.not_le.mpr h4, marked_respond]

theorem take_any {s : State} {p : PortId} (k i : Byte) (op : State → State) (h : s.canTake p) :
    (s.marked p).take p k i false op = op (s.marked p) := by
  have h1 := h.1
  have h4 := h.2.2.2
  simp [take, h1, Nat.not_le.mpr h4]

theorem take_full {s : State} {p : PortId} (k i : Byte) (n : Bool) (op : State → State) (h : s.handles p = true)
    (hp : Config.pendingLimit ≤ s.pendingCount p) :
    s.take p k i n op = s.modPort p fun q => { q with overrun := true } := by
  simp [take, h, hp]

theorem take_unhandled {s : State} {p : PortId} (k i : Byte) (n : Bool) (op : State → State) (h : s.handles p = false) :
    s.take p k i n op = s := by
  simp [take, h]

end State

/-! ### Operations over all ports and all lines -/

/-- What every port's operation keeps, the operation over all ports keeps. -/
theorem forPorts_keeps {P : State → Prop} {f : PortId → State → State} (h : ∀ p s, P s → P (f p s)) (s : State) (hs : P s) :
    P (forPorts f s) := by
  unfold forPorts
  generalize allPorts = ps
  induction ps generalizing s with
  | nil => exact hs
  | cons p ps ih => exact ih _ (h p s hs)

/-- What every line's operation keeps, the operation over all lines keeps. -/
theorem forLines_keeps {P : State → Prop} {f : LineId → State → State} (h : ∀ k s, P s → P (f k s)) (s : State) (hs : P s) :
    P (forLines f s) := by
  unfold forLines
  generalize allLines = ks
  induction ks generalizing s with
  | nil => exact hs
  | cons k ks ih => exact ih _ (h k s hs)

/-- A value read from a state that every port's operation leaves alone. -/
theorem forPorts_same {α : Type} (g : State → α) {f : PortId → State → State} (h : ∀ p s, g (f p s) = g s) (s : State) :
    g (forPorts f s) = g s := forPorts_keeps (P := fun t => g t = g s) (fun p t ht => (h p t).trans ht) s rfl

theorem forLines_same {α : Type} (g : State → α) {f : LineId → State → State} (h : ∀ k s, g (f k s) = g s) (s : State) :
    g (forLines f s) = g s := forLines_keeps (P := fun t => g t = g s) (fun k t ht => (h k t).trans ht) s rfl

/-! ### Posts (R158) -/

theorem post_refused {s : State} {p : PortId} (b : NoteBody)
    (h : (s.isOpen p && (s.queue p).enable.getLsbD b.kind.bit) = false) : s.post p b = s := by
  simp [State.post, h]

theorem post_accepted {s : State} {p : PortId} (b : NoteBody) (ho : s.isOpen p = true)
    (he : (s.queue p).enable.getLsbD b.kind.bit = true) :
    s.post p b = s.modQueue p (NoteQueue.accept s.count.serial b) := by
  simp [State.post, ho, he]

/-- A post changes nothing but the queue of its port. -/
theorem post_cases (s : State) (p : PortId) (b : NoteBody) :
    s.post p b = s ∨ s.post p b = s.modQueue p (NoteQueue.accept s.count.serial b) := by
  unfold State.post; split
  · exact Or.inr rfl
  · exact Or.inl rfl

/-- A value read from a state without its queues is the same after a post. -/
theorem post_same {α : Type} (g : State → α) (h : ∀ (s : State) p f, g (s.modQueue p f) = g s) (s : State) (p : PortId)
    (b : NoteBody) : g (s.post p b) = g s := by
  rcases post_cases s p b with e | e <;> rw [e]
  exact h _ _ _

@[simp] theorem post_time (s : State) (p : PortId) (b : NoteBody) : (s.post p b).time = s.time :=
  post_same (·.time) (fun _ _ _ => rfl) s p b
@[simp] theorem post_sync (s : State) (p : PortId) (b : NoteBody) : (s.post p b).sync = s.sync :=
  post_same (·.sync) (fun _ _ _ => rfl) s p b
@[simp] theorem post_schedule (s : State) (p : PortId) (b : NoteBody) : (s.post p b).schedule = s.schedule :=
  post_same (·.schedule) (fun _ _ _ => rfl) s p b
@[simp] theorem post_lines (s : State) (p : PortId) (b : NoteBody) : (s.post p b).lines = s.lines :=
  post_same (·.lines) (fun _ _ _ => rfl) s p b
@[simp] theorem post_journal (s : State) (p : PortId) (b : NoteBody) : (s.post p b).journal = s.journal :=
  post_same (·.journal) (fun _ _ _ => rfl) s p b
@[simp] theorem post_plan (s : State) (p : PortId) (b : NoteBody) : (s.post p b).plan = s.plan :=
  post_same (·.plan) (fun _ _ _ => rfl) s p b
@[simp] theorem post_ports (s : State) (p : PortId) (b : NoteBody) : (s.post p b).ports = s.ports :=
  post_same (·.ports) (fun _ _ _ => rfl) s p b
@[simp] theorem post_count (s : State) (p : PortId) (b : NoteBody) : (s.post p b).count = s.count :=
  post_same (·.count) (fun _ _ _ => rfl) s p b
@[simp] theorem post_resetLow (s : State) (p : PortId) (b : NoteBody) : (s.post p b).resetLow = s.resetLow :=
  post_same (·.resetLow) (fun _ _ _ => rfl) s p b
@[simp] theorem post_pending (s : State) (p : PortId) (b : NoteBody) : (s.post p b).pending = s.pending :=
  post_same (·.pending) (fun _ _ _ => rfl) s p b
@[simp] theorem post_straps (s : State) (p : PortId) (b : NoteBody) : (s.post p b).straps = s.straps :=
  post_same (·.straps) (fun _ _ _ => rfl) s p b
@[simp] theorem post_refinIn (s : State) (p : PortId) (b : NoteBody) : (s.post p b).refinIn = s.refinIn :=
  post_same (·.refinIn) (fun _ _ _ => rfl) s p b
@[simp] theorem post_lineIn (s : State) (p : PortId) (b : NoteBody) : (s.post p b).lineIn = s.lineIn :=
  post_same (·.lineIn) (fun _ _ _ => rfl) s p b
@[simp] theorem post_outputs (s : State) (p : PortId) (b : NoteBody) : (s.post p b).outputs = s.outputs :=
  post_same (·.outputs) (fun _ _ _ => rfl) s p b

/-- A post reaches no other port's queue. -/
theorem post_queue_ne (s : State) {p q : PortId} (b : NoteBody) (h : p ≠ q) : (s.post p b).queue q = s.queue q := by
  rcases post_cases s p b with e | e <;> rw [e]
  exact State.queue_modQueue_ne _ _ h

/-! ### Deferred answers (R146) -/

/-- A deferred answer changes nothing but the link of its port. -/
theorem answerDeferred_cases (s : State) (p : PortId) (o : DeferredOwner) (r : Result) (b : Body) :
    s.answerDeferred p o r b = s ∨
    ∃ d, (s.port p).deferred.find? (fun d => decide (d.owner = o)) = some d ∧
      s.answerDeferred p o r b = s.modPort p fun q =>
        { q with
          deferred := q.deferred.eraseP (fun d => decide (d.owner = o))
          responses := q.responses ++ [⟨d.kind, d.id, r, b, s.count.serial⟩] } := by
  unfold State.answerDeferred; split
  · exact Or.inl rfl
  · next d h => exact Or.inr ⟨d, h, rfl⟩

/-- A deferred answer is a move: it leaves every pending count unchanged (R143, R146). -/
theorem answerDeferred_pendingCount (s : State) (p : PortId) (o : DeferredOwner) (r : Result) (b : Body) (q : PortId) :
    (s.answerDeferred p o r b).pendingCount q = s.pendingCount q := by
  rcases answerDeferred_cases s p o r b with e | ⟨d, hd, e⟩ <;> rw [e]
  simp only [State.pendingCount, State.port_modPort]
  split
  · next h =>
    subst h
    have hm := List.mem_of_find?_eq_some hd
    have hp : (fun d : Deferred => decide (d.owner = o)) d = true :=
      List.find?_some (p := fun d : Deferred => decide (d.owner = o)) hd
    have hlen := List.length_eraseP_of_mem (p := fun d => decide (d.owner = o)) hm hp
    have hpos := List.length_pos_of_mem hm
    simp only [List.length_append, List.length_cons, List.length_nil, hlen]
    omega
  · rfl

end Sys2Proof.Machine
end

