-- ==== Sys2Proof/Laws/Settle.lean ====
section
/-! SUPPORT. What `State.settle` does: which values it keeps, that it is idempotent, and that an answer on a settled state
leaves it settled. -/

namespace Sys2Proof.Machine

/-- Two states that show the same end of the count to every report. -/
structure SameReports (a b : State) : Prop where
  time : a.time = b.time
  sync : a.sync = b.sync
  plan : a.plan = b.plan
  serial : a.count.serial = b.count.serial
  entries : a.schedule.entries = b.schedule.entries
  records : a.journal.records.length = b.journal.records.length
  missed : a.journal.missed = b.journal.missed
  isOpen : ∀ p, a.isOpen p = b.isOpen p
  session : ∀ p, (a.port p).session = (b.port p).session

namespace SameReports

variable {a b : State} (h : SameReports a b)
include h

theorem syncBody : a.syncBody = b.syncBody := by simp only [State.syncBody, h.time, h.sync]

theorem timeSnapshot : a.timeSnapshot = b.timeSnapshot := by simp only [State.timeSnapshot, h.time, h.sync, h.plan]

theorem planReport : a.planReport = b.planReport := by simp only [State.planReport, h.plan]

theorem openReport (p : PortId) : a.openReport p = b.openReport p := by
  simp only [State.openReport, h.plan, h.sync, h.session]

theorem statusReport (p : PortId) : a.statusReport p = b.statusReport p := by
  have ho : a.openPorts = b.openPorts := by simp only [State.openPorts, funext h.isOpen]
  simp only [State.statusReport, State.entryCount, State.missed, ho, h.time, h.sync, h.plan, h.session, h.entries,
    h.records, h.missed]

theorem record (r : Record) : r.refresh a = r.refresh b := by simp only [Record.refresh, h.serial, h.sync]

theorem note (n : Note) : n.refresh a = n.refresh b := by simp only [Note.refresh, h.serial, h.syncBody]

theorem item (i : JournalItem) : i.refresh a = i.refresh b := by
  cases i <;> simp only [JournalItem.refresh, h.record]

theorem head (x : NoteHead) : x.refresh a = x.refresh b := by
  cases x <;> simp only [NoteHead.refresh, h.note]

theorem body (p : PortId) (x : Body) : x.refresh a p = x.refresh b p := by
  have hi : JournalItem.refresh a = JournalItem.refresh b := funext h.item
  cases x <;> simp only [Body.refresh, h.openReport, h.statusReport, h.timeSnapshot, h.planReport, h.head, hi]

theorem response (p : PortId) (r : Response) : r.refresh a p = r.refresh b p := by
  simp only [Response.refresh, h.serial, h.body]

end SameReports

/-! ### Refreshing twice -/

theorem Record.refresh_refresh (s : State) (r : Record) : (r.refresh s).refresh s = r.refresh s := by
  unfold Record.refresh; split <;> simp_all

theorem Note.refresh_refresh (s : State) (n : Note) : (n.refresh s).refresh s = n.refresh s := by
  unfold Note.refresh; split
  · next h => simp [h.1, State.syncBody, NoteBody.kind]
  · rfl

theorem JournalItem.refresh_refresh (s : State) (i : JournalItem) : (i.refresh s).refresh s = i.refresh s := by
  cases i <;> simp only [JournalItem.refresh, Record.refresh_refresh]

theorem NoteHead.refresh_refresh (s : State) (x : NoteHead) : (x.refresh s).refresh s = x.refresh s := by
  cases x <;> simp only [NoteHead.refresh, Note.refresh_refresh]

theorem Body.refresh_refresh (s : State) (p : PortId) (b : Body) : (b.refresh s p).refresh s p = b.refresh s p := by
  cases b <;> simp [Body.refresh, State.openReport, NoteHead.refresh_refresh, JournalItem.refresh_refresh]

theorem Response.refresh_refresh (s : State) (p : PortId) (r : Response) :
    (r.refresh s p).refresh s p = r.refresh s p := by
  unfold Response.refresh; split <;> simp_all [Body.refresh_refresh]

theorem Line.atPhase_atPhase (ph : Phase) (l : Line) : (l.atPhase ph).atPhase ph = l.atPhase ph := by
  unfold Line.atPhase; rcases hm : l.mode with _ | _ | _ | _ <;> rcases ha : l.active with _ | g <;> simp_all

/-! ### The parts of a settled state -/

theorem refreshPort_isOpen (s : State) (p : PortId) (q : Port) : (refreshPort s p q).isOpen = q.isOpen := rfl

namespace State

variable (s : State)

theorem settle_port (p : PortId) : s.settle.port p = refreshPort s.settleLines p (s.port p) := by
  fin_cases p <;> rfl

theorem settle_line (k : LineId) : s.settle.line k = (s.line k).atPhase s.time.phase :=
  mapVector_getElem _ _ k.val k.isLt

theorem settle_queue (p : PortId) : s.settle.queue p =
    { s.queue p with entries := (s.queue p).entries.map (Note.refresh s.settleLines) } :=
  mapVector_getElem _ _ p.val p.isLt

theorem sameReports_settleLines : SameReports s.settleLines s :=
  ⟨rfl, rfl, rfl, rfl, rfl, rfl, rfl, fun _ => rfl, fun _ => rfl⟩

theorem sameReports_settle : SameReports s.settle s where
  time := rfl
  sync := rfl
  plan := rfl
  serial := rfl
  entries := rfl
  records := List.length_map ..
  missed := rfl
  isOpen p := by simp only [isOpen, settle_port]; rfl
  session p := by simp only [settle_port]; rfl

@[simp] theorem settle_isOpen (p : PortId) : s.settle.isOpen p = s.isOpen p := s.sameReports_settle.isOpen p
@[simp] theorem settle_handles (p : PortId) : s.settle.handles p = s.handles p := by
  simp only [handles, settle_port]; rfl
@[simp] theorem settle_pendingCount (p : PortId) : s.settle.pendingCount p = s.pendingCount p := by
  simp only [pendingCount, settle_port, refreshPort, List.length_map]

theorem settle_ports_get (p : PortId) : s.settle.ports[p] = refreshPort s p s.ports[p] := by
  have h := settle_port s p
  have e : refreshPort s.settleLines p (s.port p) = refreshPort s p (s.port p) := by
    have : Response.refresh s.settleLines p = Response.refresh s p := funext (s.sameReports_settleLines.response p)
    simp only [refreshPort, this]
  exact h.trans e

theorem settle_notes : s.settle.notes =
    mapVector (fun q => { q with entries := q.entries.map (Note.refresh s) }) s.notes := by
  have : Note.refresh s.settleLines = Note.refresh s := funext s.sameReports_settleLines.note
  show mapVector (fun q : NoteQueue => { q with entries := q.entries.map (Note.refresh s.settleLines) }) s.notes = _
  rw [this]

theorem settle_journal : s.settle.journal = { s.journal with records := s.journal.records.map (Record.refresh s) } := by
  have : Record.refresh s.settleLines = Record.refresh s := funext s.sameReports_settleLines.record
  show { s.journal with records := s.journal.records.map (Record.refresh s.settleLines) } = _
  rw [this]

theorem settle_outputs : s.settle.outputs = ⟨mapVector Line.pin s.settle.lines, mapVector NoteQueue.attn s.settle.notes⟩ :=
  rfl

/-- A state is its fields. -/
theorem ext_fields {a b : State} (h1 : a.pending = b.pending) (h2 : a.resetLow = b.resetLow) (h3 : a.straps = b.straps)
    (h4 : a.refinIn = b.refinIn) (h5 : a.lineIn = b.lineIn) (h6 : a.time = b.time) (h7 : a.sync = b.sync)
    (h8 : a.schedule = b.schedule) (h9 : a.lines = b.lines) (h10 : a.journal = b.journal) (h11 : a.plan = b.plan)
    (h12 : a.ports = b.ports) (h13 : a.notes = b.notes) (h14 : a.count = b.count) (h15 : a.outputs = b.outputs) : a = b := by
  cases a; cases b; simp_all

/-- A state is settled when its cyclic lines, records, notifications, answers and pins are as the end of the count shows
them. -/
theorem settled_of (h1 : ∀ k : LineId, (s.line k).atPhase s.time.phase = s.line k)
    (h2 : ∀ r ∈ s.journal.records, r.refresh s = r) (h3 : ∀ p, ∀ n ∈ (s.queue p).entries, n.refresh s = n)
    (h4 : ∀ p, ∀ r ∈ (s.port p).responses, r.refresh s p = r)
    (h5 : s.outputs = ⟨mapVector Line.pin s.lines, mapVector NoteQueue.attn s.notes⟩) : s.settled := by
  have hl : s.settle.lines = s.lines := vector_ext_fin fun k => (settle_line s k).trans (h1 k)
  have hn : s.settle.notes = s.notes := by
    rw [settle_notes]
    refine vector_ext_fin fun p => ?_
    rw [mapVector_get]
    have : (s.queue p).entries.map (Note.refresh s) = (s.queue p).entries := by
      simpa using List.map_congr_left (h3 p)
    show ({ s.queue p with entries := (s.queue p).entries.map (Note.refresh s) } : NoteQueue) = s.queue p
    rw [this]
  refine ext_fields rfl rfl rfl rfl rfl rfl rfl rfl hl ?_ rfl ?_ hn rfl ?_
  · rw [settle_journal]
    have : s.journal.records.map (Record.refresh s) = s.journal.records := by simpa using List.map_congr_left h2
    rw [this]
  · refine vector_ext_fin fun p => ?_
    rw [settle_ports_get]
    have : (s.port p).responses.map (Response.refresh s p) = (s.port p).responses := by
      simpa using List.map_congr_left (h4 p)
    show ({ s.port p with responses := (s.port p).responses.map (Response.refresh s p) } : Port) = s.port p
    rw [this]
  · rw [settle_outputs, hl, hn, ← h5]

/-- Settling is done once: every command answers a settled state. -/
theorem settle_settled : s.settle.settled := by
  have hr := s.sameReports_settle
  refine settled_of _ (fun k => ?_) (fun r h => ?_) (fun p n h => ?_) (fun p r h => ?_) rfl
  · rw [settle_line]; exact Line.atPhase_atPhase _ _
  · rw [settle_journal] at h
    obtain ⟨r', _, rfl⟩ := List.mem_map.mp h
    rw [hr.record, Record.refresh_refresh]
  · rw [settle_queue] at h
    obtain ⟨n', _, rfl⟩ := List.mem_map.mp h
    rw [hr.note, s.sameReports_settleLines.note, Note.refresh_refresh]
  · rw [settle_port] at h
    obtain ⟨r', _, rfl⟩ := List.mem_map.mp h
    rw [hr.response, s.sameReports_settleLines.response, Response.refresh_refresh]

theorem map_eq_self {α : Type} {f : α → α} : ∀ {l : List α}, l.map f = l → ∀ x ∈ l, f x = x
  | [], _, x, hx => absurd hx (by simp)
  | y :: ys, h, x, hx => by
    rw [List.map_cons, List.cons.injEq] at h
    rcases List.mem_cons.mp hx with e | hx
    · rw [e]; exact h.1
    · exact map_eq_self h.2 x hx

section
variable {s}

theorem settled_line (h : s.settled) (k : LineId) : (s.line k).atPhase s.time.phase = s.line k := by
  conv_rhs => rw [← h]
  exact (settle_line s k).symm

theorem settled_record (h : s.settled) : ∀ r ∈ s.journal.records, r.refresh s = r := by
  have e : s.settle.journal.records = s.journal.records := by rw [h]
  rw [settle_journal] at e
  exact map_eq_self e

theorem settled_note (h : s.settled) (p : PortId) : ∀ n ∈ (s.queue p).entries, n.refresh s = n := by
  have e : (s.settle.queue p).entries = (s.queue p).entries := by rw [h]
  rw [settle_queue] at e
  have := map_eq_self e
  intro n hn
  rw [← s.sameReports_settleLines.note]; exact this n hn

theorem settled_response (h : s.settled) (p : PortId) : ∀ r ∈ (s.port p).responses, r.refresh s p = r := by
  have e : (s.settle.port p).responses = (s.port p).responses := by rw [h]
  rw [settle_port] at e
  have := map_eq_self e
  intro r hr
  rw [← s.sameReports_settleLines.response]; exact this r hr

theorem settled_outputs (h : s.settled) :
    s.outputs = ⟨mapVector Line.pin s.lines, mapVector NoteQueue.attn s.notes⟩ := by
  have e := settle_outputs s
  rw [h] at e
  exact e

/-- A change of one port's link that no report shows leaves a settled state settled, where the port's responses are
brought to the end of the count. -/
theorem settled_modPort (h : s.settled) (p : PortId) (f : Port → Port)
    (ho : (f (s.port p)).isOpen = (s.port p).isOpen) (hs : (f (s.port p)).session = (s.port p).session)
    (hr : ∀ r ∈ (f (s.port p)).responses, r.refresh s p = r) : (s.modPort p f).settled := by
  have same : SameReports (s.modPort p f) s := by
    refine ⟨rfl, rfl, rfl, rfl, rfl, rfl, rfl, fun q => ?_, fun q => ?_⟩
    · simp only [isOpen, port_modPort]; split
      · next e => subst e; exact ho
      · rfl
    · simp only [port_modPort]; split
      · next e => subst e; exact hs
      · rfl
  refine settled_of _ (fun k => settled_line h k) (fun r hm => ?_) (fun q n hm => ?_) (fun q r hm => ?_) ?_
  · rw [same.record]; exact settled_record h r hm
  · rw [same.note]; exact settled_note h q n hm
  · rw [same.response]
    rw [port_modPort] at hm
    split at hm
    · next e => subst e; exact hr r hm
    · exact settled_response h q r hm
  · have := settled_outputs h
    exact this

theorem settled_marked (h : s.settled) (p : PortId) : (s.marked p).settled :=
  settled_modPort h p _ rfl rfl (settled_response h p)

/-- An answer on a settled state, with a body as the end of the count shows it, changes nothing else. -/
theorem settled_answered (h : s.settled) (p : PortId) (k i : Byte) (r : Result) (b : Body) (hb : b.refresh s p = b) :
    (s.answered p k i r b).settled := by
  refine settled_modPort h p _ rfl rfl fun x hx => ?_
  rcases List.mem_append.mp hx with hx | hx
  · exact settled_response h p x hx
  · obtain rfl := List.mem_singleton.mp hx
    simp [Response.refresh, hb]

theorem sameReports_answered (p : PortId) (k i : Byte) (r : Result) (b : Body) :
    SameReports (s.answered p k i r b) s := by
  refine ⟨rfl, rfl, rfl, rfl, rfl, rfl, rfl, fun q => ?_, fun q => ?_⟩
  · simp only [isOpen, answered, port_modPort]; split
    · next e => rw [e]
    · rfl
  · simp only [answered, port_modPort]; split
    · next e => rw [e]
    · rfl

/-- An answer whose body is a snapshot is given the body of the end of the count. -/
theorem settle_answered (h : s.settled) (p : PortId) (k i : Byte) (r : Result) (b : Body) :
    (s.answered p k i r b).settle = s.answered p k i r (b.refresh s p) := by
  have hsame : SameReports (s.answered p k i r b) s := sameReports_answered p k i r b
  have hset := settled_answered h p k i r (b.refresh s p) (Body.refresh_refresh s p b)
  refine ext_fields rfl rfl rfl rfl rfl rfl rfl rfl ?_ ?_ rfl ?_ ?_ rfl ?_
  · have := congrArg State.lines hset
    exact this
  · rw [settle_journal]
    have := congrArg State.journal hset
    rw [settle_journal] at this
    rw [← this]
    simp only [funext hsame.record, funext (sameReports_answered p k i r (b.refresh s p)).record]
    rfl
  · refine vector_ext_fin fun q => ?_
    rw [settle_ports_get]
    simp only [refreshPort, funext (hsame.response q)]
    show ({ (s.answered p k i r b).port q with
      responses := ((s.answered p k i r b).port q).responses.map (Response.refresh s q) } : Port) =
        (s.answered p k i r (b.refresh s p)).port q
    simp only [answered, port_modPort]
    split
    · next e =>
      subst e
      have : (s.port p).responses.map (Response.refresh s p) = (s.port p).responses := by
        simpa using List.map_congr_left (settled_response h p)
      simp [this, Response.refresh]
    · have : (s.port q).responses.map (Response.refresh s q) = (s.port q).responses := by
        simpa using List.map_congr_left (settled_response h q)
      rw [this]
  · rw [settle_notes]
    have := congrArg State.notes hset
    rw [settle_notes] at this
    rw [← this]
    simp only [funext hsame.note, funext (sameReports_answered p k i r (b.refresh s p)).note]
    rfl
  · have := congrArg State.outputs hset
    rw [settle_outputs] at this ⊢
    rw [← this]
    rw [settle_notes, settle_notes]
    simp only [funext hsame.note, funext (sameReports_answered p k i r (b.refresh s p)).note]
    rfl

end
end State
end Sys2Proof.Machine
end

