-- ==== Sys2Proof/Laws/Stable.lean ====
section
/-! SUPPORT. What no event and no request changes: the queue of commands, the pins, the select and reset inputs of the
ports, and the name and move of the count in progress. One lemma per operation; only a new count, a select edge and the
reset commands change these. -/

namespace Sys2Proof.Machine

/-- The pins of a port link, and the count in which it last handled an edge. -/
structure LinkPins where
  prstLow : Bool
  csLow : Bool
  lastEdge : Option Nat
  misoSent : List Bool

def Port.pins (q : Port) : LinkPins := ⟨q.prstLow, q.csLow, q.lastEdge, q.misoSent⟩

/-- The values that only a new count, a reset or a pin command changes. -/
structure Stable where
  pending : List Instr
  resetLow : Bool
  straps : Straps
  refinIn : Level
  lineIn : LineSet
  serial : Nat
  running : Bool
  move : Move
  ref : TimeCount
  links : Vector LinkPins 4

namespace State

/-- The stable values of a state. -/
def stable (s : State) : Stable :=
  ⟨s.pending, s.resetLow, s.straps, s.refinIn, s.lineIn, s.count.serial, s.count.running, s.count.move, s.count.ref,
    mapVector Port.pins s.ports⟩

variable (s : State)

/-- A change of a port link that keeps its pins. -/
theorem stable_modPort (p : PortId) {f : Port → Port} (h : ∀ q, (f q).pins = q.pins) :
    (s.modPort p f).stable = s.stable := by
  have : mapVector Port.pins (s.ports.set p (f s.ports[p])) = mapVector Port.pins s.ports :=
    vector_ext_fin fun i => by
      simp only [mapVector_get, vector_set_get]
      split
      · next e => rw [h, e]
      · rfl
  simp only [stable, modPort, this]

/-- The pins of a port in two states with the same stable values. -/
theorem pins_of_stable {a b : State} (h : a.stable = b.stable) (p : PortId) : (a.port p).pins = (b.port p).pins := by
  have := congrArg (fun x : Stable => x.links[p]) h
  simp only [stable, mapVector_get] at this
  exact this
@[simp] theorem stable_modLine (k f) : (s.modLine k f).stable = s.stable := rfl
@[simp] theorem stable_modQueue (p f) : (s.modQueue p f).stable = s.stable := rfl
@[simp] theorem stable_setSubs (p x) : (s.setSubs p x).stable = s.stable := rfl
@[simp] theorem stable_setMissed (p n) : (s.setMissed p n).stable = s.stable := rfl
@[simp] theorem stable_setRecords (rs) : (s.setRecords rs).stable = s.stable := rfl
@[simp] theorem stable_setEntries (es) : (s.setEntries es).stable = s.stable := rfl
@[simp] theorem stable_setProposal (x) : (s.setProposal x).stable = s.stable := rfl
@[simp] theorem stable_modSync (f) : (s.modSync f).stable = s.stable := rfl
@[simp] theorem stable_modTime (f) : (s.modTime f).stable = s.stable := rfl
@[simp] theorem stable_respond (p k i r b) : (s.respond p k i r b).stable = s.stable :=
  stable_modPort _ _ fun _ => rfl
@[simp] theorem stable_hold (p k i o) : (s.hold p k i o).stable = s.stable := stable_modPort _ _ fun _ => rfl
@[simp] theorem stable_bumpActions : s.bumpActions.stable = s.stable := rfl
@[simp] theorem stable_bumpProposals : s.bumpProposals.stable = s.stable := rfl
@[simp] theorem stable_settle : s.settle.stable = s.stable := by
  have : mapVector Port.pins s.settle.ports = mapVector Port.pins s.ports :=
    vector_ext_fin fun i => by simp only [mapVector_get, settle_ports_get]; rfl
  simp only [stable, this]
  rfl
@[simp] theorem stable_post (p b) : (s.post p b).stable = s.stable := post_same stable (fun _ _ _ => rfl) s p b
@[simp] theorem stable_answerDeferred (p o r b) : (s.answerDeferred p o r b).stable = s.stable := by
  rcases answerDeferred_cases s p o r b with e | ⟨d, _, e⟩ <;> rw [e]; exact stable_modPort _ _ fun _ => rfl
@[simp] theorem stable_dropChange (k) : (s.dropChange k).stable = s.stable := rfl
@[simp] theorem stable_append (k e r) : (s.append k e r).stable = s.stable := rfl

theorem stable_forPorts {f : PortId → State → State} (h : ∀ p s, (f p s).stable = s.stable) :
    (forPorts f s).stable = s.stable := forPorts_same stable h s
theorem stable_forLines {f : LineId → State → State} (h : ∀ k s, (f k s).stable = s.stable) :
    (forLines f s).stable = s.stable := forLines_same stable h s
theorem stable_foldl {α : Type} {f : State → α → State} (h : ∀ s x, (f s x).stable = s.stable) (l : List α) :
    (l.foldl f s).stable = s.stable := by
  induction l generalizing s with
  | nil => rfl
  | cons x xs ih => exact (ih _).trans (h _ _)

/-! ### The schedule -/

@[simp] theorem stable_handLevel (k v) : (s.handLevel k v).stable = s.stable := rfl
@[simp] theorem stable_lead (k kd) : (s.lead k kd).stable = s.stable := rfl
@[simp] theorem stable_trail (k kd) : (s.trail k kd).stable = s.stable := by unfold trail; split <;> simp
@[simp] theorem stable_report (x out) : (s.report x out).stable = s.stable := by
  unfold report; repeat' split
  all_goals simp
@[simp] theorem stable_resolve (x out) : (s.resolve x out).stable = s.stable := by simp [resolve]
@[simp] theorem stable_startPulse (x g) : (s.startPulse x g).stable = s.stable := rfl
@[simp] theorem stable_resolveJumped (st x) : (s.resolveJumped st x).stable = s.stable := by
  unfold resolveJumped; repeat' split
  all_goals simp
@[simp] theorem stable_resolveDue (x) : (s.resolveDue x).stable = s.stable := by
  unfold resolveDue; repeat' split
  all_goals simp
@[simp] theorem stable_resolveOne (x) : (s.resolveOne x).stable = s.stable := by
  unfold resolveOne; repeat' split
  all_goals simp
theorem stable_resolveHeads (go) (n) : (resolveHeads go n s).stable = s.stable := by
  induction n generalizing s with
  | zero => rfl
  | succ n ih => unfold resolveHeads; repeat' split
                 all_goals simp [ih]
@[simp] theorem stable_resolveAll : s.resolveAll.stable = s.stable := stable_resolveHeads _ _ _
@[simp] theorem stable_resolvePending : s.resolvePending.stable = s.stable := stable_resolveHeads _ _ _
@[simp] theorem stable_resolveToPulse (n) : (resolveToPulse n s).stable = s.stable := by
  induction n generalizing s with
  | zero => rfl
  | succ n ih => unfold resolveToPulse; repeat' split
                 all_goals simp [ih]
@[simp] theorem stable_answerPost (p i r n) : (s.answerPost p i r n).stable = s.stable := stable_respond ..
@[simp] theorem stable_postFuture (p i f) : (s.postFuture p i f).stable = s.stable := by
  unfold postFuture; split <;> simp
@[simp] theorem stable_postLateAction (p i f) : (s.postLateAction p i f).stable = s.stable := by
  unfold postLateAction; split <;> simp
@[simp] theorem stable_postLatePulse (p i f) : (s.postLatePulse p i f).stable = s.stable := by
  unfold postLatePulse; split
  · simp
  · split <;> simp
@[simp] theorem stable_postChecked (p i f) : (s.postChecked p i f).stable = s.stable := by
  unfold postChecked; repeat' split
  all_goals simp
@[simp] theorem stable_actionPost (p i l k w d lp sc nt tag) :
    (s.actionPost p i l k w d lp sc nt tag).stable = s.stable := by
  unfold actionPost; repeat' split
  all_goals simp
@[simp] theorem stable_cancelOne (x) : (s.cancelOne x).stable = s.stable := by
  unfold cancelOne; split <;> simp
@[simp] theorem stable_cancelAll (p i sel) : (s.cancelAll p i sel).stable = s.stable := by
  simp only [cancelAll, answerCancel, stable_respond]; exact stable_foldl _ stable_cancelOne _
@[simp] theorem stable_actionCancel (p i sel a) : (s.actionCancel p i sel a).stable = s.stable := by
  unfold actionCancel answerCancel; repeat' split
  all_goals simp
  all_goals split
  all_goals simp
@[simp] theorem stable_actionQuery (p i n) : (s.actionQuery p i n).stable = s.stable := by
  unfold actionQuery; split <;> simp
@[simp] theorem stable_orphanResolve (k) : (s.orphanResolve k).stable = s.stable := rfl
@[simp] theorem stable_orphanKeep (k) : (s.orphanKeep k).stable = s.stable := rfl
@[simp] theorem stable_adopt (k p) : (s.adopt k p).stable = s.stable := rfl

/-! ### The line table -/

@[simp] theorem stable_stopInput (k) : (s.stopInput k).stable = s.stable :=
  stable_forPorts _ fun p s => by split <;> simp
@[simp] theorem stable_leaveInput (k) : (s.leaveInput k).stable = s.stable := by unfold leaveInput; split <;> simp
@[simp] theorem stable_answerStager (k r b) : (s.answerStager k r b).stable = s.stable := by
  unfold answerStager; repeat' split
  all_goals simp
@[simp] theorem stable_discardStaged (k) : (s.discardStaged k).stable = s.stable := by simp [discardStaged]
@[simp] theorem stable_lineClaim (p i l) : (s.lineClaim p i l).stable = s.stable := by
  unfold lineClaim; repeat' split
  all_goals simp [answerClaim]
@[simp] theorem stable_lineRelease (p i l) : (s.lineRelease p i l).stable = s.stable := by
  unfold lineRelease; repeat' split
  all_goals simp [answerRelease]
@[simp] theorem stable_applyConfig (k f) : (s.applyConfig k f).stable = s.stable := by
  unfold applyConfig; split <;> simp
@[simp] theorem stable_lineConfig (p i l m sf r e v) : (s.lineConfig p i l m sf r e v).stable = s.stable := by
  unfold lineConfig; repeat' split
  all_goals simp [answerConfig]
@[simp] theorem stable_lineDrive (p i l v) : (s.lineDrive p i l v).stable = s.stable := by
  unfold lineDrive; repeat' split
  all_goals simp
@[simp] theorem stable_lineQuery (p i l) : (s.lineQuery p i l).stable = s.stable := by unfold lineQuery; split <;> simp
@[simp] theorem stable_cycleStage (p i l a b f) : (s.cycleStage p i l a b f).stable = s.stable := by
  unfold cycleStage acceptStage; repeat' split
  all_goals simp [refuseStage]
@[simp] theorem stable_reportForced (k g len) : (s.reportForced k g len).stable = s.stable := by
  unfold reportForced; repeat' split
  all_goals simp
@[simp] theorem stable_boundaryLine (len a k) : (s.boundaryLine len a k).stable = s.stable := by
  unfold boundaryLine; repeat' split
  all_goals simp
@[simp] theorem stable_boundaryLines (len a) : (s.boundaryLines len a).stable = s.stable :=
  stable_forLines _ fun k s => stable_boundaryLine s len a k
@[simp] theorem stable_retainLine (k) : (s.retainLine k).stable = s.stable := rfl
@[simp] theorem stable_dropLine (k) : (s.dropLine k).stable = s.stable := by simp [dropLine]
@[simp] theorem stable_lineSessionEnd (p k) : (s.lineSessionEnd p k).stable = s.stable := by
  unfold lineSessionEnd; repeat' split
  all_goals simp
@[simp] theorem stable_linesSessionEnd (p) : (s.linesSessionEnd p).stable = s.stable :=
  stable_forLines _ fun k s => stable_lineSessionEnd s p k

/-! ### The journal and the queues -/

@[simp] theorem stable_evict : s.evict.stable = s.stable := by
  unfold evict; repeat' split
  · rfl
  · rfl
  · exact (stable_forPorts _ fun p s => by split <;> rfl).trans rfl
@[simp] theorem stable_markReady (p) : (s.markReady p).stable = s.stable := rfl
@[simp] theorem stable_considerReady (b p) : (considerReady b p s).stable = s.stable := by
  unfold considerReady; split
  · simp
  · rfl
@[simp] theorem stable_capture (k e) : (s.capture k e).stable = s.stable := by
  unfold capture; split
  · rfl
  · rw [stable_forPorts _ fun p t => stable_considerReady t s p]; simp
@[simp] theorem stable_takeChange (x) : (s.takeChange x).stable = s.stable := by simp [takeChange]
@[simp] theorem stable_takeChangesTo (k) : (s.takeChangesTo k).stable = s.stable := by
  unfold takeChangesTo; rw [stable_foldl _ stable_takeChange]; rfl
@[simp] theorem stable_subscribeTo (p i x) : (s.subscribeTo p i x).stable = s.stable := by simp [subscribeTo]
@[simp] theorem stable_journalRead (p i m) : (s.journalRead p i m).stable = s.stable := by
  unfold journalRead readItems; split <;> simp
@[simp] theorem stable_journalSessionEnd (p) : (s.journalSessionEnd p).stable = s.stable := rfl
@[simp] theorem stable_noteRead (p i) : (s.noteRead p i).stable = s.stable := by simp [noteRead]
@[simp] theorem stable_noteAck (p i n) : (s.noteAck p i n).stable = s.stable := by unfold noteAck; split <;> simp

/-! ### The plan unit -/

@[simp] theorem stable_postSet (x b) : (s.postSet x b).stable = s.stable :=
  stable_forPorts _ fun p s => by split <;> simp
@[simp] theorem stable_answerProposer (x r b) : (s.answerProposer x r b).stable = s.stable := by
  unfold answerProposer; split <;> simp
@[simp] theorem stable_endProposal (x t r j o) : (s.endProposal x t r j o).stable = s.stable := by simp [endProposal]
@[simp] theorem stable_planPropose (p i f) : (s.planPropose p i f).stable = s.stable := by
  unfold planPropose acceptPropose; repeat' split
  all_goals simp [refusePropose]
@[simp] theorem stable_planVote (p i n d) : (s.planVote p i n d).stable = s.stable := by
  unfold planVote acceptVote rejectVote; repeat' split
  all_goals simp [answerVote]
@[simp] theorem stable_planWithdraw (p i) : (s.planWithdraw p i).stable = s.stable := by
  unfold planWithdraw; repeat' split
  all_goals simp [answerWithdraw]
@[simp] theorem stable_planRead (p i) : (s.planRead p i).stable = s.stable := by simp [planRead]
@[simp] theorem stable_setPlan (r) : (s.setPlan r).stable = s.stable := rfl
@[simp] theorem stable_announcePlan : s.announcePlan.stable = s.stable := stable_forPorts _ fun p s => stable_post s p _
@[simp] theorem stable_applyPlan (x) : (s.applyPlan x).stable = s.stable := by simp [applyPlan]
@[simp] theorem stable_boundaryPlan : s.boundaryPlan.stable = s.stable := by
  unfold boundaryPlan; repeat' split
  all_goals simp
@[simp] theorem stable_planSessionEnd (p) : (s.planSessionEnd p).stable = s.stable := by
  unfold planSessionEnd proposerEnds; repeat' split
  all_goals simp

/-! ### The sync unit and the frame events -/

@[simp] theorem stable_noteSync : s.noteSync.stable = s.stable := by
  unfold noteSync; split
  · rfl
  · rw [stable_forPorts _ fun p s => stable_post s p _]; rfl
@[simp] theorem stable_measureEdge : s.measureEdge.stable = s.stable := by
  unfold measureEdge; split <;> simp
@[simp] theorem stable_handleEdge : s.handleEdge.stable = s.stable := by
  unfold handleEdge; repeat' split
  all_goals simp
@[simp] theorem stable_changeSync (f) : (s.changeSync f).stable = s.stable := by
  unfold changeSync; split <;> simp
@[simp] theorem stable_boundarySyncClose : s.boundarySyncClose.stable = s.stable := stable_changeSync s _
@[simp] theorem stable_boundarySyncOpen (a) : (s.boundarySyncOpen a).stable = s.stable := by
  unfold boundarySyncOpen; split <;> simp
@[simp] theorem stable_boundaryPlanAndSync : s.boundaryPlanAndSync.stable = s.stable := by simp [boundaryPlanAndSync]
@[simp] theorem stable_boundaryTable (a) : (s.boundaryTable a).stable = s.stable := by simp [boundaryTable]
@[simp] theorem stable_boundaryTime : s.boundaryTime.stable = s.stable := by simp [boundaryTime]
@[simp] theorem stable_frameBoundary : s.frameBoundary.stable = s.stable := by simp [frameBoundary]
@[simp] theorem stable_frameRestart : s.frameRestart.stable = s.stable := by simp [frameRestart]
@[simp] theorem stable_frameEvent (m) : (s.frameEvent m).stable = s.stable := by unfold frameEvent; split <;> simp
@[simp] theorem stable_takeFrameEvent : s.takeFrameEvent.stable = s.stable := by
  unfold takeFrameEvent; split
  · exact stable_frameEvent _ _
  · rfl
@[simp] theorem stable_takeRefin : s.takeRefin.stable = s.stable := by
  unfold takeRefin; split
  · simp only [stable_handleEdge]; exact stable_takeFrameEvent s
  · rfl
/-- The end of a count changes no stable value. -/
@[simp] theorem stable_endCount : s.endCount.stable = s.stable := by simp [endCount]

/-! ### Sessions and requests -/

@[simp] theorem stable_endSession (p) : (s.endSession p).stable = s.stable := by
  simp only [endSession, stable_planSessionEnd, stable_journalSessionEnd, stable_linesSessionEnd, stable_modQueue]
  exact stable_modPort _ _ fun _ => rfl
@[simp] theorem stable_acceptOpen (p e x) : (s.acceptOpen p e x).stable = s.stable := by
  simp only [acceptOpen, stable_setSubs, stable_modQueue]
  exact stable_modPort _ _ fun _ => rfl
@[simp] theorem stable_openSession (p i e x) : (s.openSession p i e x).stable = s.stable := by
  unfold openSession; repeat' split
  all_goals simp
@[simp] theorem stable_closeSession (p i) : (s.closeSession p i).stable = s.stable := by simp [closeSession]
@[simp] theorem stable_statusRead (p i) : (s.statusRead p i).stable = s.stable := by simp [statusRead]
@[simp] theorem stable_timeRead (p i) : (s.timeRead p i).stable = s.stable := by simp [timeRead]
@[simp] theorem stable_unknownKind (p k i) : (s.unknownKind p k i).stable = s.stable := by simp [unknownKind]
theorem stable_take (p k i n) {op : State → State} (h : ∀ s, (op s).stable = s.stable) :
    (s.take p k i n op).stable = s.stable := by
  unfold take; repeat' split
  · rfl
  · exact stable_modPort _ _ fun _ => rfl
  · simp
  · exact h s
/-- A request taken changes no stable value. -/
@[simp] theorem stable_serve (i : Instr) : (s.serve i).stable = s.stable := by
  cases i <;> first
    | rfl
    | exact stable_take s _ _ _ _ fun s => by simp

end State
end Sys2Proof.Machine
end

