-- ==== Sys2Proof/Laws/Count.lean ====
section
/-! SUPPORT. What the beginning of a count does, field by field, and when the end of a count does nothing. -/

namespace Sys2Proof.Machine

/-! ### One change at every line -/

theorem mem_allLines (k : LineId) : k ∈ allLines := by revert k; decide
theorem nodup_allLines : allLines.Nodup := by decide
theorem mem_allPorts (p : PortId) : p ∈ allPorts := by revert p; decide
theorem nodup_allPorts : allPorts.Nodup := by decide

theorem foldl_modLine_line (f : LineId → Line → Line) (ks : List LineId) (hk : ks.Nodup) (s : State) (j : LineId) :
    (ks.foldl (fun t k => t.modLine k (f k)) s).line j = if j ∈ ks then f j (s.line j) else s.line j := by
  induction ks generalizing s with
  | nil => simp
  | cons k ks ih =>
    rw [List.nodup_cons] at hk
    rw [List.foldl_cons, ih hk.2]
    by_cases e : k = j
    · subst e; simp [hk.1]
    · rw [State.line_modLine_ne _ _ e]
      have e' : ¬ j = k := fun h => e h.symm
      simp [e']

/-- A change made at every line changes each line once. -/
theorem forLines_modLine_line (f : LineId → Line → Line) (s : State) (j : LineId) :
    (forLines (fun k t => t.modLine k (f k)) s).line j = f j (s.line j) := by
  have h := foldl_modLine_line f allLines nodup_allLines s j
  rw [if_pos (mem_allLines j)] at h
  exact h

theorem forLines_modLine_same {α : Type} (g : State → α) (hl : ∀ (s : State) k f, g (s.modLine k f) = g s)
    (f : LineId → Line → Line) (s : State) : g (forLines (fun k t => t.modLine k (f k)) s) = g s :=
  forLines_same g (fun k t => hl t k (f k)) s

namespace State

variable (s : State)

/-! ### The move (R2) -/

@[simp] theorem moveCount_lines : s.moveCount.lines = s.lines := by
  unfold moveCount correctCount backwardCount forwardCount
  repeat' split
  all_goals rfl
@[simp] theorem moveCount_line (k : LineId) : s.moveCount.line k = s.line k := by simp only [line, moveCount_lines]
@[simp] theorem moveCount_refinLast : s.moveCount.sync.refinLast = s.sync.refinLast := by
  unfold moveCount correctCount backwardCount forwardCount
  repeat' split
  all_goals rfl
@[simp] theorem moveCount_serial : s.moveCount.count.serial = s.count.serial + 1 := by
  unfold moveCount correctCount backwardCount forwardCount
  repeat' split
  all_goals rfl
@[simp] theorem moveCount_running : s.moveCount.count.running = true := by
  unfold moveCount correctCount backwardCount forwardCount
  repeat' split
  all_goals rfl
@[simp] theorem moveCount_ports : s.moveCount.ports = s.ports := by
  unfold moveCount correctCount backwardCount forwardCount
  repeat' split
  all_goals rfl
@[simp] theorem moveCount_schedule : s.moveCount.schedule = s.schedule := by
  unfold moveCount correctCount backwardCount forwardCount
  repeat' split
  all_goals rfl
@[simp] theorem moveCount_journal : s.moveCount.journal = s.journal := by
  unfold moveCount correctCount backwardCount forwardCount
  repeat' split
  all_goals rfl
@[simp] theorem moveCount_plan : s.moveCount.plan = s.plan := by
  unfold moveCount correctCount backwardCount forwardCount
  repeat' split
  all_goals rfl
@[simp] theorem moveCount_notes : s.moveCount.notes = s.notes := by
  unfold moveCount correctCount backwardCount forwardCount
  repeat' split
  all_goals rfl
@[simp] theorem moveCount_resetLow : s.moveCount.resetLow = s.resetLow := by
  unfold moveCount correctCount backwardCount forwardCount
  repeat' split
  all_goals rfl

/-! ### Sampling -/

@[simp] theorem settleLines_time : s.settleLines.time = s.time := rfl
@[simp] theorem settleLines_sync : s.settleLines.sync = s.sync := rfl
@[simp] theorem settleLines_count : s.settleLines.count = s.count := rfl
theorem settleLines_line (k : LineId) : s.settleLines.line k = (s.line k).atPhase s.time.phase := mapVector_get _ _ k
@[simp] theorem drivePins_line (v : Level) (x : LineSet) (k : LineId) : (s.drivePins v x).line k = s.line k := rfl
@[simp] theorem sampleRefin_time (v : Level) : (s.sampleRefin v).time = s.time := rfl
@[simp] theorem sampleRefin_line (v : Level) (k : LineId) : (s.sampleRefin v).line k = s.line k := rfl
theorem sampleRefin_sync (v : Level) : (s.sampleRefin v).sync = { s.sync with refinLast := some v } := rfl
theorem sampleRefin_count (v : Level) : (s.sampleRefin v).count =
    { s.count with refinEdge := decide (s.sync.refinLast = some .low ∧ v = .high) } := rfl

/-- A value that neither the lines nor the count hold is the same after the lines are sampled. -/
theorem sampleLines_same {α : Type} (g : State → α) (hl : ∀ (s : State) k f, g (s.modLine k f) = g s)
    (hc : ∀ (s : State) f, g (s.modCount f) = g s) (x : LineSet) : g (s.sampleLines x) = g s :=
  (hc _ fun c => { c with
    changes := allLines.filterMap fun k => ((s.line k).change (pinLevel x k)).map fun e => (k, e) }).trans
    (forLines_modLine_same g hl _ s)
@[simp] theorem sampleLines_time (x : LineSet) : (s.sampleLines x).time = s.time :=
  sampleLines_same s (·.time) (fun _ _ _ => rfl) (fun _ _ => rfl) x
@[simp] theorem sampleLines_sync (x : LineSet) : (s.sampleLines x).sync = s.sync :=
  sampleLines_same s (·.sync) (fun _ _ _ => rfl) (fun _ _ => rfl) x
theorem sampleLines_count (x : LineSet) : (s.sampleLines x).count =
    { s.count with changes := allLines.filterMap fun k => ((s.line k).change (pinLevel x k)).map fun e => (k, e) } := rfl
theorem sampleLines_line (x : LineSet) (k : LineId) : (s.sampleLines x).line k = (s.line k).sampled (pinLevel x k) :=
  forLines_modLine_line (fun k => Line.sampled (pinLevel x k)) s k

/-! ### The whole beginning of a count -/

section
variable {s} (refin : Level) (x : LineSet)

theorem beginCount_eq (h : s.resetLow = false) : s.beginCount refin x =
    (((s.endCount.moveCount.sampleRefin refin).sampleLines x).drivePins refin x).settleLines := by
  simp [beginCount, h]

theorem beginCount_held (h : s.resetLow = true) : s.beginCount refin x = s.drivePins refin x := by
  simp [beginCount, h]

/-- A value that the sampling of a count does not hold is the move's. -/
theorem beginCount_same {α : Type} (g : State → α) (h : s.resetLow = false)
    (hl : ∀ (s : State) k f, g (s.modLine k f) = g s) (hc : ∀ (s : State) f, g (s.modCount f) = g s)
    (hs : ∀ (s : State) f, g (s.modSync f) = g s) (hp : ∀ (s : State) v x, g (s.drivePins v x) = g s)
    (ht : ∀ s : State, g s.settleLines = g s) : g (s.beginCount refin x) = g s.endCount.moveCount := by
  rw [beginCount_eq refin x h, ht, hp, sampleLines_same _ g hl hc]
  unfold sampleRefin
  rw [hc, hs]

theorem beginCount_time (h : s.resetLow = false) : (s.beginCount refin x).time = s.endCount.moveCount.time := by
  rw [beginCount_eq refin x h]; simp
theorem beginCount_schedule (h : s.resetLow = false) : (s.beginCount refin x).schedule = s.endCount.schedule :=
  (beginCount_same refin x (·.schedule) h (fun _ _ _ => rfl) (fun _ _ => rfl) (fun _ _ => rfl) (fun _ _ _ => rfl)
    fun _ => rfl).trans (moveCount_schedule _)
theorem beginCount_journal (h : s.resetLow = false) : (s.beginCount refin x).journal = s.endCount.journal :=
  (beginCount_same refin x (·.journal) h (fun _ _ _ => rfl) (fun _ _ => rfl) (fun _ _ => rfl) (fun _ _ _ => rfl)
    fun _ => rfl).trans (moveCount_journal _)
theorem beginCount_plan (h : s.resetLow = false) : (s.beginCount refin x).plan = s.endCount.plan :=
  (beginCount_same refin x (·.plan) h (fun _ _ _ => rfl) (fun _ _ => rfl) (fun _ _ => rfl) (fun _ _ _ => rfl)
    fun _ => rfl).trans (moveCount_plan _)
theorem beginCount_ports (h : s.resetLow = false) : (s.beginCount refin x).ports = s.endCount.ports :=
  (beginCount_same refin x (·.ports) h (fun _ _ _ => rfl) (fun _ _ => rfl) (fun _ _ => rfl) (fun _ _ _ => rfl)
    fun _ => rfl).trans (moveCount_ports _)
theorem beginCount_notes (h : s.resetLow = false) : (s.beginCount refin x).notes = s.endCount.notes :=
  (beginCount_same refin x (·.notes) h (fun _ _ _ => rfl) (fun _ _ => rfl) (fun _ _ => rfl) (fun _ _ _ => rfl)
    fun _ => rfl).trans (moveCount_notes _)
theorem endCount_resetLow : s.endCount.resetLow = s.resetLow := congrArg Stable.resetLow (stable_endCount s)
theorem endCount_serial : s.endCount.count.serial = s.count.serial := congrArg Stable.serial (stable_endCount s)
theorem beginCount_resetLow (h : s.resetLow = false) : (s.beginCount refin x).resetLow = false :=
  (beginCount_same refin x (·.resetLow) h (fun _ _ _ => rfl) (fun _ _ => rfl) (fun _ _ => rfl) (fun _ _ _ => rfl)
    fun _ => rfl).trans ((moveCount_resetLow _).trans (endCount_resetLow.trans h))
theorem beginCount_pins (h : s.resetLow = false) :
    (s.beginCount refin x).refinIn = refin ∧ (s.beginCount refin x).lineIn = x := by
  rw [beginCount_eq refin x h]; exact ⟨rfl, rfl⟩
theorem beginCount_sync (h : s.resetLow = false) :
    (s.beginCount refin x).sync = { s.endCount.moveCount.sync with refinLast := some refin } := by
  rw [beginCount_eq refin x h, settleLines_sync, drivePins_sync, sampleLines_sync, sampleRefin_sync]
theorem beginCount_count (h : s.resetLow = false) : (s.beginCount refin x).count =
    { s.endCount.moveCount.count with
      refinEdge := decide (s.endCount.sync.refinLast = some .low ∧ refin = .high)
      changes := allLines.filterMap fun k => ((s.endCount.line k).change (pinLevel x k)).map fun e => (k, e) } := by
  rw [beginCount_eq refin x h, settleLines_count, drivePins_count, sampleLines_count, sampleRefin_count]
  simp only [sampleRefin_line, moveCount_line, moveCount_refinLast]
theorem beginCount_serial (h : s.resetLow = false) : (s.beginCount refin x).count.serial = s.count.serial + 1 := by
  rw [beginCount_count refin x h]
  exact (moveCount_serial _).trans (by rw [endCount_serial])
theorem beginCount_running (h : s.resetLow = false) : (s.beginCount refin x).count.running = true := by
  rw [beginCount_count refin x h]
  exact moveCount_running _
theorem beginCount_line (h : s.resetLow = false) (k : LineId) : (s.beginCount refin x).line k =
    ((s.endCount.line k).sampled (pinLevel x k)).atPhase s.endCount.moveCount.time.phase := by
  rw [beginCount_eq refin x h, settleLines_line, drivePins_line, sampleLines_line, sampleRefin_line, moveCount_line,
    drivePins_time, sampleLines_time, sampleRefin_time]

/-- A level change waits in a new count exactly where the line's sample finds one. -/
theorem beginCount_changes (h : s.resetLow = false) (k : LineId) (e : Edge) :
    (k, e) ∈ (s.beginCount refin x).count.changes ↔ (s.endCount.line k).change (pinLevel x k) = some e := by
  rw [beginCount_count refin x h]
  simp only [List.mem_filterMap, Option.map_eq_some_iff, Prod.mk.injEq]
  constructor
  · rintro ⟨a, _, b, h, rfl, rfl⟩; exact h
  · intro h; exact ⟨k, mem_allLines k, e, h, rfl, rfl⟩

end

/-! ### A count in which nothing waits -/

variable {s}

theorem takeFrameEvent_quiet (h : s.count.raised = false) : s.takeFrameEvent = s := by simp [takeFrameEvent, h]

theorem resolveHeads_quiet (go : State → Bool) (n : Nat)
    (h : ∀ x ∈ s.schedule.entries, ahead s.time.t x.effective = true) : resolveHeads go n s = s := by
  cases n with
  | zero => rfl
  | succ n =>
    unfold resolveHeads
    split
    · rfl
    · next x xs hx => simp [isDue, h x (by rw [hx]; simp)]

theorem takeRefin_quiet (h : s.count.refinEdge = false) : s.takeRefin = s := by simp [takeRefin, h]

theorem takeChangesTo_quiet (k : LineId) (h : s.count.changes = []) : s.takeChangesTo k = s := by
  unfold takeChangesTo
  simp only [h, List.takeWhile_nil, List.dropWhile_nil, List.foldl_nil]
  rw [← h]

end State
end Sys2Proof.Machine
end

