-- ==== Sys2Proof/Laws/Boundary.lean ====
section
/-! SUPPORT. What a frame boundary event does, block by block: a value that only some blocks hold is the same after the
others, and the plan, the time base and the sync unit after the event in terms of the state before it. -/

namespace Sys2Proof.Machine
namespace State

variable (s : State)

/-! ### The operations of an event, for a value they do not hold -/

theorem noteSync_same {α : Type} (g : State → α) (hq : ∀ (s : State) p f, g (s.modQueue p f) = g s)
    (hc : ∀ s : State, g { s with count := { s.count with syncPosted := true } } = g s) : g s.noteSync = g s := by
  unfold noteSync
  split
  · rfl
  · exact (forPorts_same g (fun p t => post_same g hq _ _ _) _).trans (hc s)

theorem changeSync_same {α : Type} (g : State → α) (hq : ∀ (s : State) p f, g (s.modQueue p f) = g s)
    (hc : ∀ s : State, g { s with count := { s.count with syncPosted := true } } = g s)
    (hs : ∀ (s : State) f, g (s.modSync f) = g s) (f : SyncUnit → SyncUnit) : g (s.changeSync f) = g s := by
  unfold changeSync
  split
  · exact hs _ _
  · exact (noteSync_same _ g hq hc).trans (hs _ _)

theorem changeSync_sync (f : SyncUnit → SyncUnit) : (s.changeSync f).sync = f s.sync := by
  unfold changeSync
  split
  · rfl
  · exact (noteSync_same _ (·.sync) (fun _ _ _ => rfl) fun _ => rfl).trans rfl

theorem answerDeferred_same {α : Type} (g : State → α) (hp : ∀ (s : State) p f, g (s.modPort p f) = g s) (p : PortId)
    (o : DeferredOwner) (r : Result) (b : Body) : g (s.answerDeferred p o r b) = g s := by
  rcases answerDeferred_cases s p o r b with e | ⟨d, _, e⟩ <;> rw [e]
  exact hp _ _ _

theorem answerStager_same {α : Type} (g : State → α) (hp : ∀ (s : State) p f, g (s.modPort p f) = g s) (k : LineId)
    (r : Result) (b : Body) : g (s.answerStager k r b) = g s := by
  unfold answerStager
  repeat' split
  all_goals first | rfl | exact answerDeferred_same _ g hp _ _ _ _

theorem reportForced_same {α : Type} (g : State → α) (hq : ∀ (s : State) p f, g (s.modQueue p f) = g s) (k : LineId)
    (x : Program) (len : Phase) : g (s.reportForced k x len) = g s := by
  unfold reportForced
  repeat' split
  all_goals first | rfl | exact post_same g hq _ _ _

theorem boundaryLine_same {α : Type} (g : State → α) (hq : ∀ (s : State) p f, g (s.modQueue p f) = g s)
    (hl : ∀ (s : State) k f, g (s.modLine k f) = g s) (hp : ∀ (s : State) p f, g (s.modPort p f) = g s) (len : Phase)
    (a : Bool) (k : LineId) : g (s.boundaryLine len a k) = g s := by
  unfold boundaryLine
  repeat' split
  · rfl
  · rw [reportForced_same _ g hq, hl, answerStager_same _ g hp]
  · rfl
  · rw [reportForced_same _ g hq, hl]
  · rfl

theorem boundaryLines_same {α : Type} (g : State → α) (hq : ∀ (s : State) p f, g (s.modQueue p f) = g s)
    (hl : ∀ (s : State) k f, g (s.modLine k f) = g s) (hp : ∀ (s : State) p f, g (s.modPort p f) = g s) (len : Phase)
    (a : Bool) : g (s.boundaryLines len a) = g s :=
  forLines_same g (fun k t => boundaryLine_same t g hq hl hp len a k) s

theorem postSet_same {α : Type} (g : State → α) (hq : ∀ (s : State) p f, g (s.modQueue p f) = g s) (x : PortSet)
    (b : NoteBody) : g (s.postSet x b) = g s :=
  forPorts_same g (fun _ _ => by split; exact post_same g hq _ _ _; rfl) s

theorem answerProposer_same {α : Type} (g : State → α) (hp : ∀ (s : State) p f, g (s.modPort p f) = g s) (x : Proposal)
    (r : Result) (b : Body) : g (s.answerProposer x r b) = g s := by
  unfold answerProposer
  split
  · rfl
  · exact answerDeferred_same _ g hp _ _ _ _

theorem endProposal_same {α : Type} (g : State → α) (hq : ∀ (s : State) p f, g (s.modQueue p f) = g s)
    (hp : ∀ (s : State) p f, g (s.modPort p f) = g s) (hpl : ∀ (s : State) x, g { s with plan := x } = g s) (x : Proposal)
    (told : PortSet) (r : Result) (j : Option PortId) (o : PlanOutcome) : g (s.endProposal x told r j o) = g s :=
  (hpl _ _).trans ((postSet_same _ g hq _ _).trans (answerProposer_same _ g hp _ _ _))

theorem applyPlan_same {α : Type} (g : State → α) (hq : ∀ (s : State) p f, g (s.modQueue p f) = g s)
    (hp : ∀ (s : State) p f, g (s.modPort p f) = g s) (hpl : ∀ (s : State) x, g { s with plan := x } = g s) (x : Proposal) :
    g (s.applyPlan x) = g s :=
  (hpl _ _).trans ((answerProposer_same _ g hp _ _ _).trans
    ((forPorts_same g (fun _ _ => post_same g hq _ _ _) _).trans (hpl s _)))

theorem boundaryPlan_same {α : Type} (g : State → α) (hq : ∀ (s : State) p f, g (s.modQueue p f) = g s)
    (hp : ∀ (s : State) p f, g (s.modPort p f) = g s) (hpl : ∀ (s : State) x, g { s with plan := x } = g s) :
    g s.boundaryPlan = g s := by
  unfold boundaryPlan
  repeat' split
  · rfl
  · exact applyPlan_same _ g hq hp hpl _
  · exact endProposal_same _ g hq hp hpl _ _ _ _ _
  · exact hpl _ _

/-! ### The plan unit (R125, R126) -/

theorem endProposal_plan (x : Proposal) (told : PortSet) (r : Result) (j : Option PortId) (o : PlanOutcome) :
    (s.endProposal x told r j o).plan = { s.plan with proposal := none } := by
  unfold endProposal
  rw [setProposal_plan, postSet_same _ (·.plan) (fun _ _ _ => rfl), answerProposer_same _ (·.plan) (fun _ _ _ => rfl)]

theorem applyPlan_plan (x : Proposal) :
    (s.applyPlan x).plan = ⟨x.plan, s.plan.number + 1, none, s.plan.counter⟩ := by
  unfold applyPlan announcePlan
  rw [setProposal_plan, answerProposer_same _ (·.plan) (fun _ _ _ => rfl),
    forPorts_same (·.plan) (fun _ _ => post_plan _ _ _)]
  rfl

/-- The plan unit after a frame boundary event. -/
theorem boundaryPlan_plan : s.boundaryPlan.plan = match s.plan.proposal with
    | none => s.plan
    | some x => match x.state with
      | .agreed => ⟨x.plan, s.plan.number + 1, none, s.plan.counter⟩
      | .voting => if x.remaining - 1 = 0 then { s.plan with proposal := none }
        else { s.plan with proposal := some { x with remaining := x.remaining - 1 } } := by
  cases hx : s.plan.proposal with
  | none => simp only [boundaryPlan, hx]
  | some x =>
    cases ha : x.state with
    | agreed => simp only [boundaryPlan, hx, ha]; exact applyPlan_plan s x
    | voting =>
      simp only [boundaryPlan, hx, ha]
      split
      · exact endProposal_plan s _ _ _ _ _
      · rfl

/-! ### The sync unit, the plan unit and the time base after the event -/

theorem boundarySyncClose_plan : s.boundarySyncClose.plan = s.plan :=
  changeSync_same s (·.plan) (fun _ _ _ => rfl) (fun _ => rfl) (fun _ _ => rfl) _

theorem boundarySyncOpen_same {α : Type} (g : State → α) (hq : ∀ (s : State) p f, g (s.modQueue p f) = g s)
    (hc : ∀ s : State, g { s with count := { s.count with syncPosted := true } } = g s)
    (hs : ∀ (s : State) f, g (s.modSync f) = g s) (a : Bool) : g (s.boundarySyncOpen a) = g s := by
  unfold boundarySyncOpen
  rw [hs]
  split
  · exact changeSync_same s g hq hc hs _
  · rfl

theorem boundarySyncOpen_sync (a : Bool) : (s.boundarySyncOpen a).sync =
    { (if a then SyncUnit.takeUp s.plan.record.refEnable s.sync else s.sync) with measured := false } := by
  unfold boundarySyncOpen
  rw [modSync_sync]
  split
  · rw [changeSync_sync]
  · rfl

/-- A value that the sync unit, the plan unit, the queues, the ports and the sync post of the count do not hold. -/
theorem boundaryPlanAndSync_same {α : Type} (g : State → α) (hq : ∀ (s : State) p f, g (s.modQueue p f) = g s)
    (hc : ∀ s : State, g { s with count := { s.count with syncPosted := true } } = g s)
    (hs : ∀ (s : State) f, g (s.modSync f) = g s) (hp : ∀ (s : State) p f, g (s.modPort p f) = g s)
    (hpl : ∀ (s : State) x, g { s with plan := x } = g s) : g s.boundaryPlanAndSync = g s := by
  unfold boundaryPlanAndSync boundarySyncClose
  rw [boundarySyncOpen_same _ g hq hc hs, boundaryPlan_same _ g hq hp hpl, changeSync_same _ g hq hc hs]

theorem boundaryPlanAndSync_plan : s.boundaryPlanAndSync.plan = s.boundaryPlan.plan := by
  unfold boundaryPlanAndSync
  rw [boundarySyncOpen_same _ (·.plan) (fun _ _ _ => rfl) (fun _ => rfl) (fun _ _ => rfl), boundaryPlan_plan,
    boundaryPlan_plan, boundarySyncClose_plan]

theorem boundaryPlanAndSync_sync : s.boundaryPlanAndSync.sync =
    { (if s.planApplies then
        SyncUnit.takeUp s.boundaryPlan.plan.record.refEnable (SyncUnit.closeAt s.plan.record.holdoverLimit s.sync)
      else SyncUnit.closeAt s.plan.record.holdoverLimit s.sync) with measured := false } := by
  have h0 : s.boundarySyncClose.boundaryPlan.sync = SyncUnit.closeAt s.plan.record.holdoverLimit s.sync := by
    rw [boundaryPlan_same _ (·.sync) (fun _ _ _ => rfl) (fun _ _ _ => rfl) fun _ _ => rfl]
    exact changeSync_sync s _
  have h1 : s.boundarySyncClose.boundaryPlan.plan = s.boundaryPlan.plan := by
    rw [boundaryPlan_plan, boundaryPlan_plan, boundarySyncClose_plan]
  unfold boundaryPlanAndSync
  rw [boundarySyncOpen_sync, h0, h1]

/-- A value that only the line table and the time base leave: a block's value after the event. -/
theorem frameBoundary_same {α : Type} (g : State → α) (hq : ∀ (s : State) p f, g (s.modQueue p f) = g s)
    (hl : ∀ (s : State) k f, g (s.modLine k f) = g s) (hp : ∀ (s : State) p f, g (s.modPort p f) = g s)
    (ht : ∀ (s : State) f, g (s.modTime f) = g s) : g s.frameBoundary = g s.boundaryPlanAndSync := by
  unfold frameBoundary boundaryTime boundaryTable
  rw [ht, boundaryLines_same _ g hq hl hp]

theorem frameBoundary_plan : s.frameBoundary.plan = s.boundaryPlan.plan :=
  (frameBoundary_same s (·.plan) (fun _ _ _ => rfl) (fun _ _ _ => rfl) (fun _ _ _ => rfl) fun _ _ => rfl).trans
    (boundaryPlanAndSync_plan s)
theorem frameBoundary_sync : s.frameBoundary.sync = s.boundaryPlanAndSync.sync :=
  frameBoundary_same s (·.sync) (fun _ _ _ => rfl) (fun _ _ _ => rfl) (fun _ _ _ => rfl) fun _ _ => rfl
theorem frameBoundary_schedule : s.frameBoundary.schedule = s.schedule :=
  (frameBoundary_same s (·.schedule) (fun _ _ _ => rfl) (fun _ _ _ => rfl) (fun _ _ _ => rfl) fun _ _ => rfl).trans
    (boundaryPlanAndSync_same s (·.schedule) (fun _ _ _ => rfl) (fun _ => rfl) (fun _ _ => rfl) (fun _ _ _ => rfl) fun _ _ => rfl)
theorem frameBoundary_journal : s.frameBoundary.journal = s.journal :=
  (frameBoundary_same s (·.journal) (fun _ _ _ => rfl) (fun _ _ _ => rfl) (fun _ _ _ => rfl) fun _ _ => rfl).trans
    (boundaryPlanAndSync_same s (·.journal) (fun _ _ _ => rfl) (fun _ => rfl) (fun _ _ => rfl) (fun _ _ _ => rfl) fun _ _ => rfl)
theorem frameBoundary_raised : s.frameBoundary.count.raised = s.count.raised :=
  (frameBoundary_same s (·.count.raised) (fun _ _ _ => rfl) (fun _ _ _ => rfl) (fun _ _ _ => rfl) fun _ _ => rfl).trans
    (boundaryPlanAndSync_same s (·.count.raised) (fun _ _ _ => rfl) (fun _ => rfl) (fun _ _ => rfl) (fun _ _ _ => rfl)
      fun _ _ => rfl)
/-- The time base after a frame boundary event (R6, R7). -/
theorem frameBoundary_time : s.frameBoundary.time =
    { s.time with len := s.frameBoundary.plan.record.frameLength, run := .opened, performed := 0 } := by
  have ht : (s.boundaryPlanAndSync.boundaryTable s.planApplies).time = s.time :=
    (boundaryLines_same _ (·.time) (fun _ _ _ => rfl) (fun _ _ _ => rfl) (fun _ _ _ => rfl) _ _).trans
      (boundaryPlanAndSync_same s (·.time) (fun _ _ _ => rfl) (fun _ => rfl) (fun _ _ => rfl) (fun _ _ _ => rfl) fun _ _ => rfl)
  unfold frameBoundary boundaryTime
  simp only [modTime_time, modTime_plan, ht, TimeBase.openRun]

/-! ### The frame event of a count taken -/

/-- A value that the queues and the sync post do not hold, after the frame event of a count that is no backward step. -/
theorem takeFrameEvent_boundary {α : Type} (g : State → α) (hq : ∀ (s : State) p f, g (s.modQueue p f) = g s)
    (hc : ∀ s : State, g { s with count := { s.count with syncPosted := true } } = g s) (h : s.boundaryWaits = true) :
    g s.takeFrameEvent = g (s.modCount fun c => { c with raised := false }).frameBoundary := by
  have h' : s.count.raised = true ∧ s.count.move ≠ .backward := by simpa [boundaryWaits] using h
  unfold takeFrameEvent
  rw [if_pos h'.1]
  unfold frameEvent
  cases hm : s.count.move with
  | ordinary => rfl
  | insertion => rfl
  | deletion => rfl
  | backward => exact absurd hm h'.2
  | forward held => exact noteSync_same _ g hq hc

theorem takeFrameEvent_backward (hr : s.count.raised = true) (hm : s.count.move = .backward) :
    s.takeFrameEvent = (s.modCount fun c => { c with raised := false }).frameRestart := by
  simp [takeFrameEvent, hr, hm, frameEvent]

end State
end Sys2Proof.Machine
end

