-- ==== Sys2Proof/Laws/Journal.lean ====
section
/-! SUPPORT. What a capture does at the queues and the count: the posts of JOURNAL_READY and their marks, and the values a
capture leaves alone. -/

namespace Sys2Proof.Machine
namespace State

variable (s : State)

/-! ### JOURNAL_READY (R84, R85) -/

/-- A case of R84 holds exactly when the unread or the missed count left 0. -/
theorem readyCase_iff (before s : State) (p : PortId) : before.readyCase s p = true ↔
    (before.unreadCount p = 0 ∧ s.unreadCount p ≠ 0) ∨ (before.missed p = 0 ∧ s.missed p ≠ 0) := by
  simp [readyCase]

/-- A consideration posts and marks its port, or changes nothing. -/
theorem considerReady_cases (before : State) (p : PortId) :
    considerReady before p s = s ∨
      before.readyCase s p = true ∧ s.count.readyPosted.getLsbD p.val = false ∧
        considerReady before p s = (s.post p (.journalReady (s.unreadCount p) (s.missed p))).markReady p := by
  unfold considerReady
  split
  · next h =>
    rw [Bool.and_eq_true, Bool.not_eq_true'] at h
    exact Or.inr ⟨h.1, h.2, rfl⟩
  · exact Or.inl rfl

/-- A port for which the count has met a case is posted to no more (R84). -/
theorem considerReady_marked (before : State) (p : PortId) (h : s.count.readyPosted.getLsbD p.val = true) :
    considerReady before p s = s := by simp [considerReady, h]

/-- A value that neither queues nor the count hold is the same after a consideration. -/
theorem considerReady_same {α : Type} (g : State → α) (hq : ∀ (s : State) p f, g (s.modQueue p f) = g s)
    (hc : ∀ (s : State) f, g (s.modCount f) = g s) (before : State) (p : PortId) :
    g (considerReady before p s) = g s := by
  rcases considerReady_cases s before p with e | ⟨_, _, e⟩ <;> rw [e]
  exact (hc _ _).trans (post_same g hq _ _ _)

theorem considerReady_queue_ne (before : State) {p q : PortId} (h : p ≠ q) :
    (considerReady before p s).queue q = s.queue q := by
  rcases considerReady_cases s before p with e | ⟨_, _, e⟩ <;> rw [e]
  exact post_queue_ne s _ h

/-! ### Eviction and storing (R80 to R82) -/

theorem evict_room (h : s.journal.records.length < Config.journalCapacity) : s.evict = s := by simp [evict, h]

/-- A value that the journal does not hold is the same after an eviction. -/
theorem evict_same {α : Type} (g : State → α) (hr : ∀ (s : State) rs, g (s.setRecords rs) = g s)
    (hm : ∀ (s : State) p n, g (s.setMissed p n) = g s) : g s.evict = g s := by
  unfold evict
  repeat' split
  · rfl
  · rfl
  · exact (forPorts_same g (fun p t => by split; exact hm _ _ _; rfl) _).trans (hr _ _)

/-- A value that neither the journal, the queues nor the count hold is the same after a capture. -/
theorem capture_same {α : Type} (g : State → α) (hq : ∀ (s : State) p f, g (s.modQueue p f) = g s)
    (hc : ∀ (s : State) f, g (s.modCount f) = g s) (hr : ∀ (s : State) rs, g (s.setRecords rs) = g s)
    (hm : ∀ (s : State) p n, g (s.setMissed p n) = g s) (ha : ∀ (s : State) k e x, g (s.append k e x) = g s) (k : LineId)
    (e : Edge) : g (s.capture k e) = g s := by
  unfold capture
  split
  · rfl
  · rw [forPorts_same g fun p t => considerReady_same t g hq hc s p, ha, evict_same _ g hr hm]

@[simp] theorem capture_time (k : LineId) (e : Edge) : (s.capture k e).time = s.time :=
  capture_same s (·.time) (fun _ _ _ => rfl) (fun _ _ => rfl) (fun _ _ => rfl) (fun _ _ _ => rfl) (fun _ _ _ _ => rfl) k e
@[simp] theorem capture_sync (k : LineId) (e : Edge) : (s.capture k e).sync = s.sync :=
  capture_same s (·.sync) (fun _ _ _ => rfl) (fun _ _ => rfl) (fun _ _ => rfl) (fun _ _ _ => rfl) (fun _ _ _ _ => rfl) k e
@[simp] theorem capture_schedule (k : LineId) (e : Edge) : (s.capture k e).schedule = s.schedule :=
  capture_same s (·.schedule) (fun _ _ _ => rfl) (fun _ _ => rfl) (fun _ _ => rfl) (fun _ _ _ => rfl)
    (fun _ _ _ _ => rfl) k e
@[simp] theorem capture_plan (k : LineId) (e : Edge) : (s.capture k e).plan = s.plan :=
  capture_same s (·.plan) (fun _ _ _ => rfl) (fun _ _ => rfl) (fun _ _ => rfl) (fun _ _ _ => rfl) (fun _ _ _ _ => rfl) k e
@[simp] theorem capture_lines (k : LineId) (e : Edge) : (s.capture k e).lines = s.lines :=
  capture_same s (·.lines) (fun _ _ _ => rfl) (fun _ _ => rfl) (fun _ _ => rfl) (fun _ _ _ => rfl) (fun _ _ _ _ => rfl) k e
@[simp] theorem capture_ports (k : LineId) (e : Edge) : (s.capture k e).ports = s.ports :=
  capture_same s (·.ports) (fun _ _ _ => rfl) (fun _ _ => rfl) (fun _ _ => rfl) (fun _ _ _ => rfl) (fun _ _ _ _ => rfl) k e
@[simp] theorem capture_changes (k : LineId) (e : Edge) : (s.capture k e).count.changes = s.count.changes := by
  unfold capture
  split
  · rfl
  · have h : ∀ p (t : State), (considerReady s p t).count.changes = t.count.changes := fun p t => by
      rcases considerReady_cases t s p with e | ⟨_, _, e⟩ <;> rw [e]
      show (t.post p _).count.changes = t.count.changes
      rw [post_count]
    rw [forPorts_same (·.count.changes) h]
    exact congrArg Count.changes (evict_same s (·.count) (fun _ _ => rfl) fun _ _ _ => rfl)

end State
end Sys2Proof.Machine
end

