-- ==== Sys2Proof/Laws/Link.lean ====
section
/-! SUPPORT. What MISO_n carries, and what the select edges and the release of PRST_n do to their port. -/

namespace Sys2Proof.Machine
namespace State

variable {s : State} {p : PortId}

/-! ### MISO_n (R134, R135, R151) -/

theorem misoUndriven_held (h : s.handles p = false) : s.misoUndriven p := fun n => by simp [miso, misoBit, h]
theorem misoUndriven_high (h : (s.port p).csLow = false) : s.misoUndriven p := fun n => by simp [miso, misoBit, h]
theorem misoUndriven_ignored (h : (s.port p).chosen = none) : s.misoUndriven p := fun n => by simp [miso, misoBit, h]

/-- In a handled transaction MISO_n carries the chosen response. -/
theorem miso_chosen {c : Chosen} (h : s.handles p = true) (hl : (s.port p).csLow = true) (hc : (s.port p).chosen = some c)
    (n : Nat) : s.miso p n = some (c.byteAt n) := by simp [miso, h, hl, hc]

/-- The bytes of a response stand at their places, and 0xFF after them. -/
theorem byteAt_eq (c : Chosen) (n : Nat) : c.byteAt n = if h : n < c.bytes.length then c.bytes[n] else 0xFF := by
  unfold Chosen.byteAt
  split
  · next h => simp [h]
  · next h => simp [Nat.not_lt.mp h]

/-- In a handled transaction MISO_n carries the bits of the chosen response. -/
theorem misoBit_chosen {c : Chosen} (h : s.handles p = true) (hl : (s.port p).csLow = true) (hc : (s.port p).chosen = some c)
    (k : Nat) : s.misoBit p k = some (c.bitAt k) := by simp [misoBit, Chosen.bitAt, miso_chosen h hl hc]

/-- The bits of byte `n` stand at their places, most significant bit first. -/
theorem bitAt_eq (c : Chosen) (n : Nat) {i : Nat} (h : i < 8) : c.bitAt (8 * n + i) = (c.byteAt n).getMsbD i := by
  simp [Chosen.bitAt, Nat.mul_add_div, Nat.div_eq_of_lt h, Nat.mod_eq_of_lt h]

@[simp] theorem misoBits_length (c : Chosen) (n : Nat) : (misoBits c n).length = n := by simp [misoBits]

theorem misoBits_getElem (c : Chosen) (n k : Nat) (h : k < (misoBits c n).length) : (misoBits c n)[k] = c.bitAt k := by
  simp [misoBits]

/-- Eight bits, most significant first, are their byte. -/
theorem ofBoolListBE_getMsbD (b : Byte) : BitVec.ofBoolListBE [b.getMsbD 0, b.getMsbD 1, b.getMsbD 2, b.getMsbD 3,
    b.getMsbD 4, b.getMsbD 5, b.getMsbD 6, b.getMsbD 7] = b := by
  revert b; decide +kernel

/-- The complete bytes of the bits from byte `a` on are the bytes from `a` on. -/
theorem bytesOfBits_from (c : Chosen) {r : Nat} (hr : r < 8) : ∀ n a : Nat,
    bytesOfBits ((List.range' (8 * a) (8 * n + r)).map c.bitAt) = (List.range' a n).map c.byteAt
  | 0, a => by
    match r, hr with
    | 0, _ | 1, _ | 2, _ | 3, _ | 4, _ | 5, _ | 6, _ | 7, _ => rfl
  | n + 1, a => by
    have e : List.range' (8 * a) (8 * (n + 1) + r) = 8 * a :: (8 * a + 1) :: (8 * a + 2) :: (8 * a + 3) :: (8 * a + 4) ::
        (8 * a + 5) :: (8 * a + 6) :: (8 * a + 7) :: List.range' (8 * (a + 1)) (8 * n + r) := by
      rw [show 8 * (n + 1) + r = 8 * n + r + 1 + 1 + 1 + 1 + 1 + 1 + 1 + 1 by omega]; rfl
    have h0 := bitAt_eq c a (i := 0) (by decide)
    rw [Nat.add_zero] at h0
    rw [e]
    simp only [List.map_cons, bytesOfBits, h0, bitAt_eq c a (i := 1) (by decide), bitAt_eq c a (i := 2) (by decide),
      bitAt_eq c a (i := 3) (by decide), bitAt_eq c a (i := 4) (by decide), bitAt_eq c a (i := 5) (by decide),
      bitAt_eq c a (i := 6) (by decide), bitAt_eq c a (i := 7) (by decide), ofBoolListBE_getMsbD,
      bytesOfBits_from c hr n (a + 1), List.range'_succ]

/-- The complete bytes of what MISO_n carried are the bytes of the transaction. -/
theorem bytesOfBits_misoBits (c : Chosen) (m : Nat) : bytesOfBits (misoBits c m) = (List.range (m / 8)).map c.byteAt := by
  have h := bytesOfBits_from c (Nat.mod_lt m (by decide : 0 < 8)) (m / 8) 0
  rwa [Nat.div_add_mod, Nat.mul_zero, ← List.range_eq_range', ← List.range_eq_range'] at h

/-- As many complete bytes as there are eights of bits. -/
theorem bytesOfBits_length : ∀ l : List Bool, (bytesOfBits l).length = l.length / 8
  | _ :: _ :: _ :: _ :: _ :: _ :: _ :: _ :: rest => by
    simp only [bytesOfBits, List.length_cons, bytesOfBits_length rest]; omega
  | [] | [_] | [_, _] | [_, _, _] | [_, _, _, _] | [_, _, _, _, _] | [_, _, _, _, _, _] | [_, _, _, _, _, _, _] => by
    simp [bytesOfBits]

/-! ### PRST_n and the select edges -/

/-- The release of PRST_n changes its pin, and marks the count where it leaves port reset in one (R151). -/
theorem prstRelease_eq (s : State) (p : PortId) : s.prstRelease p = s.modPort p fun q =>
    { q with
      prstLow := false
      lastEdge := if q.prstLow = true ∧ s.resetLow = false then some s.count.serial else q.lastEdge } := by
  unfold prstRelease
  split
  · next h =>
    rw [Bool.and_eq_true, Bool.not_eq_true'] at h
    simp only [useCount, modPort_modPort, modPort_count]
    exact modPort_congr s p (by simp [h.1, h.2])
  · next h =>
    refine modPort_congr s p ?_
    rw [Bool.and_eq_true, Bool.not_eq_true'] at h
    simp [h]

/-- A rise that ends an ignored transaction takes a count of the port and settles nothing (R135). -/
theorem selectRises_ignored (mosi : List Bool) (hl : (s.port p).csLow = true) (hc : (s.port p).chosen = none) :
    s.selectRises p mosi = (s.linkCount p).modPort p fun q => { q with csLow := false } := by
  simp [selectRises, hl, hc]

end State
end Sys2Proof.Machine
end

