-- ==== Sys2Proof/Laws/Request.lean ====
section
/-! SUPPORT. A request command in terms of its block's operation: on a port that can take it, with a session, the answer is the
operation on the marked count, settled; and an answer whose body the end of the count does not change is the whole effect. -/

namespace Sys2Proof.Machine

/-- The bodies that are fixed when the answer is made. -/
def Body.fixed : Body → Bool
  | .opened _ _ _ _ | .status _ | .time _ | .planRead _ | .journal _ _ | .note _ => false
  | .empty | .closed _ | .post _ _ _ | .cancel _ | .query _ _ _ | .claim _ _ _ | .line _ | .drive _ _ _ | .lineRecord _
  | .stage _ _ _ | .subscribed _ | .ack _ _ | .propose _ _ _ _ | .vote _ _ | .withdraw _ => true

theorem Body.refresh_fixed (s : State) (p : PortId) {b : Body} (h : b.fixed = true) : b.refresh s p = b := by
  cases b <;> first | rfl | cases h

/-- The gate lets the request of an open port through to its block. -/
theorem answer_take_open {s : State} {p : PortId} (h : s.serving p) (k i : Byte) (n : Bool) (op : State → State) :
    answer ((s.linkCount p).take p k i n op) = .next (op (s.marked p)).settle := by
  rw [State.linkCount_of_canTake h.1, State.take_open k i n op h.1 h.2.1]
  rfl

/-- The gate lets a request that needs no session through in either session state. -/
theorem answer_take_any {s : State} {p : PortId} (h : s.canTake p) (k i : Byte) (op : State → State) :
    answer ((s.linkCount p).take p k i false op) = .next (op (s.marked p)).settle := by
  rw [State.linkCount_of_canTake h, State.take_any k i op h]
  rfl

/-- An answer with a fixed body on a settled state is the whole effect of a request. -/
theorem settle_answered_fixed {s : State} (h : s.settled) (p : PortId) (k i : Byte) (r : Result) {b : Body}
    (hb : b.fixed = true) : (s.answered p k i r b).settle = s.answered p k i r b := by
  rw [State.settle_answered h, Body.refresh_fixed s p hb]

/-- An answer given at the marked count of a settled state. -/
theorem settle_respond_marked {s : State} (h : s.settled) (p : PortId) (k i : Byte) (r : Result) {b : Body}
    (hb : b.fixed = true) : ((s.marked p).respond p k i r b).settle = s.answered p k i r b := by
  rw [State.marked_respond, settle_answered_fixed h p k i r hb]

/-! ### The readings of a marked count -/

namespace State
variable (s : State)

@[simp] theorem marked_entryCount (p q : PortId) : (s.marked p).entryCount q = s.entryCount q := rfl
@[simp] theorem marked_entriesOn (p : PortId) (k : LineId) : (s.marked p).entriesOn k = s.entriesOn k := rfl
@[simp] theorem marked_orphansOn (p : PortId) (k : LineId) : (s.marked p).orphansOn k = s.orphansOn k := rfl
@[simp] theorem marked_missed (p q : PortId) : (s.marked p).missed q = s.missed q := rfl
@[simp] theorem marked_subs (p q : PortId) : (s.marked p).subs q = s.subs q := rfl
@[simp] theorem marked_unread (p q : PortId) : (s.marked p).unread q = s.unread q := rfl
@[simp] theorem marked_unreadCount (p q : PortId) : (s.marked p).unreadCount q = s.unreadCount q := rfl
@[simp] theorem marked_roomCheck (p q : PortId) : (s.marked p).roomCheck q = s.roomCheck q := rfl
@[simp] theorem marked_numbers (p : PortId) : (s.marked p).numbers = s.numbers := rfl
@[simp] theorem marked_openPorts (p : PortId) : (s.marked p).openPorts = s.openPorts := by
  simp only [openPorts, funext (marked_isOpen s p)]
@[simp] theorem marked_session (p q : PortId) : ((s.marked p).port q).session = (s.port q).session := by
  simp only [marked_port]; split
  · next h => rw [h]
  · rfl
@[simp] theorem marked_timeSnapshot (p : PortId) : (s.marked p).timeSnapshot = s.timeSnapshot := rfl
@[simp] theorem marked_planReport (p : PortId) : (s.marked p).planReport = s.planReport := rfl
@[simp] theorem marked_statusReport (p q : PortId) : (s.marked p).statusReport q = s.statusReport q := by
  simp [statusReport]
@[simp] theorem marked_openReport (p q : PortId) : (s.marked p).openReport q = s.openReport q := by
  simp [openReport]

end State

/-! ### Times (R13 to R15) -/

/-- The two distances between two times add up to the whole circle, or are both 0. -/
theorem distances (a b : TimeCount) : (b - a).toNat + (a - b).toNat = 2 ^ 48 ∨ (b - a).toNat = 0 ∧ (a - b).toNat = 0 := by
  simp only [BitVec.toNat_sub]
  omega

theorem withinHorizon_iff (now due : TimeCount) : withinHorizon now due = true ↔ ¬outOfHorizon now due := by
  have h := distances now due
  simp only [withinHorizon, Bool.or_eq_true, decide_eq_true_eq]
  simp only [forward, Config.horizon, outOfHorizon]
  omega

theorem ahead_iff (now due : TimeCount) : ahead now due = true ↔ 0 < (due - now).toNat ∧ (due - now).toNat < 2 ^ 47 := by
  simp only [ahead, Bool.and_eq_true, decide_eq_true_eq]
  exact Iff.rfl

/-- A time at most 2^40 counts behind is within horizon and not ahead. -/
theorem late_of_behind {now due : TimeCount} (h : (now - due).toNat ≤ 2 ^ 40) :
    withinHorizon now due = true ∧ ahead now due = false := by
  have hd := distances now due
  rw [withinHorizon_iff, ← Bool.not_eq_true, ahead_iff]
  unfold outOfHorizon
  omega

/-- A time at most 2^40 counts ahead is within horizon and ahead. -/
theorem future_of_ahead {now due : TimeCount} (h0 : 0 < (due - now).toNat) (h : (due - now).toNat ≤ 2 ^ 40) :
    withinHorizon now due = true ∧ ahead now due = true := by
  rw [withinHorizon_iff, ahead_iff]
  unfold outOfHorizon
  omega

/-! ### The operands of a request -/

theorem lineOf_lineByte (k : LineId) : lineOf (lineByte k) = some k := by revert k; decide
theorem lineOf_high {b : Byte} (h : 16 ≤ b.toNat) : lineOf b = none := by
  unfold lineOf; rw [dif_neg (by omega)]
theorem actionKindOf_code (x : ActionKind) : actionKindOf x.code = some x := by cases x <;> decide
theorem latePolicyOf_code (x : LatePolicy) : latePolicyOf x.code = some x := by cases x <;> decide
theorem syncClassOf_code (x : SyncClass) : syncClassOf x.code = some x := by cases x <;> decide
theorem yesNoOf_flagByte (x : Bool) : yesNoOf (flagByte x) = some x := by cases x <;> decide
theorem modeOf_code (x : Mode) : modeOf x.code = some x := by cases x <;> decide
theorem driveOf_code (x : Drive) : driveOf x.code = some x := by cases x <;> decide
theorem edgeSelectOf_code (x : EdgeSelect) : edgeSelectOf x.code = some x := by cases x <;> decide
theorem levelOf_code (x : Level) : levelOf (levelCode x) = some x := by cases x <;> decide
theorem forceOf_code (x : Force) : forceOf x.code = some x := by cases x <;> decide
theorem stepPolicyOf_code (x : StepPolicy) : stepPolicyOf x.code = some x := by cases x <;> decide

/-- The fields of an ACTION_POST that passed check 3 (R25). -/
theorem postFieldsOf_codes (k : LineId) (kd : ActionKind) (width : Phase) (due : TimeCount) (lp : LatePolicy) (sc : SyncClass)
    (nt : Bool) (tag : BitVec 16) (h : (kd = .pulseHigh ∨ kd = .pulseLow) ↔ width ≠ 0) :
    postFieldsOf k kd.code width due lp.code sc.code (flagByte nt) tag = some ⟨k, kd, width, due, lp, sc, nt, tag⟩ := by
  simp only [postFieldsOf, actionKindOf_code, latePolicyOf_code, syncClassOf_code, yesNoOf_flagByte]
  rw [if_pos]
  by_cases hw : width = 0 <;> cases kd <;> simp_all [ActionKind.isPulse]

/-- Check 3 fails exactly when a field is out of range (R25). -/
theorem postFieldsOf_none (k : LineId) (kind : Byte) (width : Phase) (due : TimeCount) (late sync notify : Byte)
    (tag : BitVec 16) (h : ¬postInRange kind width late sync notify) :
    postFieldsOf k kind width due late sync notify tag = none := by
  unfold postFieldsOf
  split
  · next kd lp sc nt h1 h2 h3 h4 =>
    rw [if_neg]
    intro hw
    refine h ⟨?_, ?_, ?_, ?_⟩
    · revert h1 hw
      unfold actionKindOf
      by_cases w0 : width = 0
      · simp only [w0, ne_eq, not_true_eq_false, decide_false]
        repeat' split
        all_goals intro e hw
        all_goals cases e
        all_goals first | (cases hw; done) | simp [*]
      · simp only [w0, ne_eq, not_false_eq_true, decide_true]
        repeat' split
        all_goals intro e hw
        all_goals cases e
        all_goals first | (cases hw; done) | simp [*]
    · revert h2; unfold latePolicyOf; repeat' split
      all_goals simp [*]
    · revert h3; unfold syncClassOf; repeat' split
      all_goals simp [*]
    · revert h4; unfold yesNoOf; repeat' split
      all_goals simp [*]
  · rfl

/-- Check 3 passes exactly when every field is in range (R25). -/
theorem postFieldsOf_some (k : LineId) (kind : Byte) (width : Phase) (due : TimeCount) (late sync notify : Byte)
    (tag : BitVec 16) (h : postInRange kind width late sync notify) : ∃ kd lp sc nt,
      postFieldsOf k kind width due late sync notify tag = some ⟨k, kd, width, due, lp, sc, nt, tag⟩ ∧
      latePolicyOf late = some lp ∧ (kd.isPulse = true ↔ kind = 4 ∨ kind = 5) := by
  obtain ⟨h1, h2, h3, h4⟩ := h
  obtain ⟨nt, hn⟩ : ∃ nt, yesNoOf notify = some nt := by rcases h4 with rfl | rfl <;> exact ⟨_, rfl⟩
  obtain ⟨sc, hs⟩ : ∃ sc, syncClassOf sync = some sc := by rcases h3 with rfl | rfl <;> exact ⟨_, rfl⟩
  obtain ⟨lp, hl⟩ : ∃ lp, latePolicyOf late = some lp := by rcases h2 with rfl | rfl <;> exact ⟨_, rfl⟩
  have main : ∀ kd : ActionKind, actionKindOf kind = some kd → kd.isPulse = decide (width ≠ 0) →
      (kd.isPulse = true ↔ kind = 4 ∨ kind = 5) → ∃ kd lp sc nt,
      postFieldsOf k kind width due late sync notify tag = some ⟨k, kd, width, due, lp, sc, nt, tag⟩ ∧
      latePolicyOf late = some lp ∧ (kd.isPulse = true ↔ kind = 4 ∨ kind = 5) := fun kd h1 h2 h3 =>
    ⟨kd, lp, sc, nt, by simp only [postFieldsOf, h1, hl, hs, hn, h2, if_true], hl, h3⟩
  rcases h1 with ⟨rfl | rfl | rfl, hw⟩ | ⟨rfl | rfl, hw⟩
  · exact main .set rfl (by simp [hw, ActionKind.isPulse]) (by decide)
  · exact main .clear rfl (by simp [hw, ActionKind.isPulse]) (by decide)
  · exact main .toggle rfl (by simp [hw, ActionKind.isPulse]) (by decide)
  · exact main .pulseHigh rfl (decide_eq_true hw).symm (by decide)
  · exact main .pulseLow rfl (decide_eq_true hw).symm (by decide)

end Sys2Proof.Machine
end

