-- ==== Sys2Proof/Laws/Resolve.lean ====
section
/-! SUPPORT. What a post and a resolution leave in the queues of a settled state, and the list after a resolution. -/

namespace Sys2Proof.Machine

/-! ### The queues of a settled state -/

theorem settle_queue_eq (u : State) (p : PortId) :
    u.settle.queue p = { u.queue p with entries := (u.queue p).entries.map (Note.refresh u) } := by
  rw [State.settle_queue, funext (State.sameReports_settleLines u).note]

/-- A queue that an operation leaves alone stays as it is when the state is settled again. -/
theorem settle_queue_of (s u : State) (hs : s.settled) (p : PortId) (hq : u.queue p = s.queue p)
    (h1 : u.count.serial = s.count.serial) (h2 : u.sync = s.sync) (h3 : u.time = s.time) :
    u.settle.queue p = s.queue p := by
  rw [settle_queue_eq, hq]
  have : (s.queue p).entries.map (Note.refresh u) = (s.queue p).entries := by
    have := State.settled_note hs p
    conv_rhs => rw [← List.map_id (s.queue p).entries]
    refine List.map_congr_left fun n hn => ?_
    have h := this n hn
    simp only [Note.refresh, State.syncBody, h1, h2, h3] at h ⊢
    exact h
  rw [this]

/-- A queue after a post of another kind than SYNC_CHANGE stays as the post left it. -/
theorem settle_queue_accept (s u : State) (hs : s.settled) (p : PortId) (b : NoteBody) (hb : b.kind ≠ .syncChange)
    (hq : u.queue p = (s.post p b).queue p) (h1 : u.count.serial = s.count.serial) (h2 : u.sync = s.sync)
    (h3 : u.time = s.time) : u.settle.queue p = (s.post p b).queue p := by
  rw [settle_queue_eq, hq]
  have hr : ∀ n ∈ ((s.post p b).queue p).entries, n.refresh u = n := by
    intro n hn
    have hh : ∀ n : Note, n.refresh s = n → n.refresh u = n := by
      intro n h; simp only [Note.refresh, State.syncBody, h1, h2, h3] at h ⊢; exact h
    have hnb : ∀ n : Note, n.body = b → n.refresh u = n := by
      intro n hn; simp only [Note.refresh, hn, hb, and_false, if_false]
    rcases post_cases s p b with e | e
    · rw [e] at hn; exact hh _ (State.settled_note hs p n hn)
    · rw [e, State.queue_modQueue_same] at hn
      unfold NoteQueue.accept NoteQueue.refire NoteQueue.create NoteQueue.lose NoteQueue.bump at hn
      split at hn
      · dsimp only at hn
        obtain ⟨m, hm, rfl⟩ := List.mem_map.mp hn
        by_cases hmk : m.body.kind = b.kind
        · rw [if_pos hmk]; exact hnb _ rfl
        · rw [if_neg hmk]; exact hh _ (State.settled_note hs p m hm)
      · split at hn
        · rcases List.mem_append.mp hn with hn | hn
          · exact hh _ (State.settled_note hs p n hn)
          · rw [List.mem_singleton.mp hn]; exact hnb _ rfl
        · exact hh _ (State.settled_note hs p n hn)
  have : ((s.post p b).queue p).entries.map (Note.refresh u) = ((s.post p b).queue p).entries := by
    conv_rhs => rw [← List.map_id ((s.post p b).queue p).entries]
    exact List.map_congr_left hr
  rw [this]

/-! ### What a queue shows of its posts (R158 to R161) -/

/-- The queue holds a notification with the body, or has lost something. -/
def NoteQueue.shows (b : NoteBody) (q : NoteQueue) : Prop := q.overflow.isSome = true ∨ ∃ n ∈ q.entries, n.body = b

/-- An accepted post shows in its queue. -/
theorem accept_shows (stamp : Nat) (b : NoteBody) (q : NoteQueue) : (q.accept stamp b).shows b := by
  unfold NoteQueue.accept
  split
  · next h =>
    rw [Bool.and_eq_true, List.any_eq_true] at h
    obtain ⟨_, n, hn, hk⟩ := h
    refine Or.inr ⟨⟨q.counter, b, satInc 255 n.repeats, stamp⟩, List.mem_map.mpr ⟨n, hn, ?_⟩, rfl⟩
    rw [if_pos (of_decide_eq_true hk)]
  · split
    · exact Or.inr ⟨_, List.mem_append_right _ (List.mem_singleton.mpr rfl), rfl⟩
    · exact Or.inl rfl

/-- A notification of a kind that does not coalesce still shows after any other post. -/
theorem accept_keeps_shows (stamp : Nat) (b c : NoteBody) (q : NoteQueue) (hb : b.kind.coalescing = false) (h : q.shows b) :
    (q.accept stamp c).shows b := by
  unfold NoteQueue.accept
  split
  · next hc =>
    rw [Bool.and_eq_true] at hc
    rcases h with h | ⟨n, hn, e⟩
    · exact Or.inl h
    · refine Or.inr ⟨n, List.mem_map.mpr ⟨n, hn, if_neg ?_⟩, e⟩
      intro hk
      rw [e] at hk
      rw [hk] at hb
      exact absurd (hc.1.symm.trans hb) (by decide)
  · split
    · rcases h with h | ⟨n, hn, e⟩
      · exact Or.inl h
      · exact Or.inr ⟨n, List.mem_append_left _ hn, e⟩
    · exact Or.inl rfl

/-- The same for a post to any port, whether it is let through or not. -/
theorem post_keeps_shows (s : State) (p q : PortId) (b c : NoteBody) (hb : b.kind.coalescing = false)
    (h : (s.queue p).shows b) : ((s.post q c).queue p).shows b := by
  rcases post_cases s q c with e | e <;> rw [e]
  · exact h
  · rw [State.queue_modQueue]
    split
    · next hq => subst hq; exact accept_keeps_shows _ _ _ _ hb h
    · exact h

/-! ### Resolutions (R45) -/

/-- A report posts to the owner of an entry that notifies, and reaches no other queue. -/
theorem report_queue (s : State) (x : Entry) (out : Outcome) (ho : out ≠ .orphaned) (p : PortId) :
    (s.report x out).queue p = if x.notify = true ∧ x.owner = some p then
      (s.post p (.actionResult x.number x.tag x.line out s.time.t s.time.epoch)).queue p else s.queue p := by
  unfold State.report
  cases hx : x.owner with
  | none => simp
  | some q =>
    dsimp only
    by_cases hn : x.notify = true
    · rw [if_pos ⟨hn, ho⟩]
      by_cases e : q = p
      · subst e; simp [hn]
      · rw [post_queue_ne _ _ e, if_neg (by simp [e])]
    · rw [if_neg (by simp [hn]), if_neg (by simp [hn])]

/-- A value that the queues do not hold is the same after a report. -/
theorem report_same {α : Type} (g : State → α) (hq : ∀ (s : State) p f, g (s.modQueue p f) = g s) (s : State) (x : Entry)
    (out : Outcome) : g (s.report x out) = g s := by
  unfold State.report; repeat' split
  all_goals first | rfl | exact post_same g hq _ _ _

/-- Posts on two states that agree on the port, its queue and the count leave the same queue. -/
theorem post_queue_congr (s u : State) (p : PortId) (b : NoteBody) (h1 : s.isOpen p = u.isOpen p)
    (h2 : s.queue p = u.queue p) (h3 : s.count.serial = u.count.serial) : (s.post p b).queue p = (u.post p b).queue p := by
  unfold State.post
  rw [h1, h2]
  split
  · rw [State.queue_modQueue_same, State.queue_modQueue_same, h2, h3]
  · exact h2

/-- A resolution posts its ACTION_RESULT and reaches no other queue. -/
theorem resolve_settle_queue (s u : State) (hs : s.settled) (x : Entry) (out : Outcome) (ho : out ≠ .orphaned)
    (hn : u.notes = s.notes) (hp : u.ports = s.ports) (hc : u.count = s.count) (h2 : u.sync = s.sync)
    (h3 : u.time = s.time) : s.resultPosted x out (u.resolve x out).settle := by
  intro p
  have hq : ∀ p, u.queue p = s.queue p := fun p => by simp only [State.queue, hn]
  have hio : u.isOpen p = s.isOpen p := by simp only [State.isOpen, State.port, hp]
  have hrq := report_queue (u.setEntries (removeNumber x.number u.schedule.entries)) x out ho p
  have a1 : (u.resolve x out).count.serial = s.count.serial := by
    unfold State.resolve; rw [report_same (·.count.serial) (fun _ _ _ => rfl)]; exact congrArg Count.serial hc
  have a2 : (u.resolve x out).sync = s.sync := by
    unfold State.resolve; rw [report_same (·.sync) (fun _ _ _ => rfl)]; exact h2
  have a3 : (u.resolve x out).time = s.time := by
    unfold State.resolve; rw [report_same (·.time) (fun _ _ _ => rfl)]; exact h3
  split
  · next h =>
    rw [if_pos h] at hrq
    refine settle_queue_accept s _ hs p _ (by simp [NoteBody.kind]) ?_ a1 a2 a3
    refine hrq.trans ?_
    have e1 : (u.setEntries (removeNumber x.number u.schedule.entries)).time = s.time := h3
    rw [e1]
    exact post_queue_congr _ _ _ _ hio (hq p) (congrArg Count.serial hc)
  · next h =>
    rw [if_neg h] at hrq
    exact settle_queue_of s _ hs p (hrq.trans (hq p)) a1 a2 a3

/-- A resolution takes the entry off the list and leaves the counter. -/
theorem resolve_entries (s : State) (x : Entry) (out : Outcome) :
    (s.resolve x out).schedule = { s.schedule with entries := removeNumber x.number s.schedule.entries } := by
  unfold State.resolve; rw [report_same (·.schedule) (fun _ _ _ => rfl)]; rfl

/-- A value that neither the queues nor the list hold is the same after a resolution. -/
theorem resolve_same {α : Type} (g : State → α) (hq : ∀ (s : State) p f, g (s.modQueue p f) = g s)
    (he : ∀ (s : State) es, g (s.setEntries es) = g s) (s : State) (x : Entry) (out : Outcome) :
    g (s.resolve x out) = g s := by
  unfold State.resolve; rw [report_same g hq, he]

/-- The head is the entry its number removes. -/
theorem remove_head (x : Entry) (rest : List Entry) : removeNumber x.number (x :: rest) = rest := by simp [removeNumber]

end Sys2Proof.Machine
end

