-- ==== Sys2Proof/Laws/Session.lean ====
section
/-! SUPPORT. What a session end does and leaves alone, at the port link, the time base, the sync unit and the queues. -/

namespace Sys2Proof.Machine

namespace State

variable (s : State)

/-! ### Values that neither queues, lines, the schedule, the journal nor the proposal hold -/

/-- Leaving INPUT posts notifications and drops a waiting change. -/
theorem leaveInput_same {α : Type} (g : State → α) (hq : ∀ (s : State) p f, g (s.modQueue p f) = g s)
    (hc : ∀ (s : State) f, g (s.modCount f) = g s) (k : LineId) : g (s.leaveInput k) = g s := by
  unfold leaveInput
  split
  · have h1 : g ((s.stopInput k).dropChange k) = g (s.stopInput k) :=
      hc _ fun c => { c with changes := c.changes.filter fun x => decide (x.1 ≠ k) }
    rw [h1]
    exact forPorts_same g (fun p t => by split; exact post_same g hq _ _ _; rfl) s
  · rfl

/-- The session end of a port at the lines, for a value that lines, schedule, queues and waiting changes do not hold. -/
theorem linesSessionEnd_same {α : Type} (g : State → α) (hq : ∀ (s : State) p f, g (s.modQueue p f) = g s)
    (hc : ∀ (s : State) f, g (s.modCount f) = g s) (hl : ∀ (s : State) k f, g (s.modLine k f) = g s)
    (he : ∀ (s : State) es, g (s.setEntries es) = g s) (p : PortId) : g (s.linesSessionEnd p) = g s := by
  refine forLines_same g (fun k t => ?_) s
  unfold lineSessionEnd
  split
  · rfl
  · split
    · exact (he _ _).trans (hl _ _ _)
    · exact (hl _ _ _).trans ((leaveInput_same _ g hq hc k).trans (he _ _))

theorem planSessionEnd_same {α : Type} (g : State → α) (hq : ∀ (s : State) p f, g (s.modQueue p f) = g s)
    (hp : ∀ (s : State) x, g (s.setProposal x) = g s) (p : PortId) : g (s.planSessionEnd p) = g s := by
  unfold planSessionEnd proposerEnds
  repeat' split
  · rfl
  · rw [hp]; exact forPorts_same g (fun p t => by split; exact post_same g hq _ _ _; rfl) s
  · rw [hp]
  · rw [hp]
  · rfl

/-- The part of a session end after the port link and the queue. -/
theorem endSession_same {α : Type} (g : State → α) (hq : ∀ (s : State) p f, g (s.modQueue p f) = g s)
    (hc : ∀ (s : State) f, g (s.modCount f) = g s) (hl : ∀ (s : State) k f, g (s.modLine k f) = g s)
    (he : ∀ (s : State) es, g (s.setEntries es) = g s) (hp : ∀ (s : State) x, g (s.setProposal x) = g s)
    (hj : ∀ (s : State) p, g (s.journalSessionEnd p) = g s) (p : PortId) :
    g (s.endSession p) = g (s.modPort p Port.ended) := by
  unfold endSession
  rw [planSessionEnd_same _ g hq hp, hj, linesSessionEnd_same _ g hq hc hl he, hq]

@[simp] theorem endSession_time (p : PortId) : (s.endSession p).time = s.time :=
  endSession_same s (·.time) (fun _ _ _ => rfl) (fun _ _ => rfl) (fun _ _ _ => rfl) (fun _ _ => rfl) (fun _ _ => rfl)
    (fun _ _ => rfl) p
@[simp] theorem endSession_sync (p : PortId) : (s.endSession p).sync = s.sync :=
  endSession_same s (·.sync) (fun _ _ _ => rfl) (fun _ _ => rfl) (fun _ _ _ => rfl) (fun _ _ => rfl) (fun _ _ => rfl)
    (fun _ _ => rfl) p
@[simp] theorem endSession_ports (p : PortId) : (s.endSession p).ports = (s.modPort p Port.ended).ports :=
  endSession_same s (·.ports) (fun _ _ _ => rfl) (fun _ _ => rfl) (fun _ _ _ => rfl) (fun _ _ => rfl) (fun _ _ => rfl)
    (fun _ _ => rfl) p
theorem endSession_port (p q : PortId) :
    (s.endSession p).port q = if p = q then (s.port p).ended else s.port q := by
  have h := congrArg (fun v : Vector Port 4 => v[q]) (endSession_ports s p)
  exact h.trans (port_modPort s p q Port.ended)

/-! ### The queue of the ending port -/

/-- A post to a closed port changes nothing (R158). -/
theorem post_closed {p : PortId} (b : NoteBody) (h : s.isOpen p = false) : s.post p b = s :=
  post_refused b (by simp [h])

theorem post_closed_queue {p q : PortId} (b : NoteBody) (h : s.isOpen p = false) : (s.post q b).queue p = s.queue p := by
  by_cases e : q = p
  · subst e; rw [post_closed s b h]
  · exact post_queue_ne s b e

@[simp] theorem post_isOpen (p q : PortId) (b : NoteBody) : (s.post q b).isOpen p = s.isOpen p :=
  post_same (·.isOpen p) (fun _ _ _ => rfl) s q b

/-- The queue of a closed port, and that it is closed, are kept by an operation over ports that only posts. -/
theorem forPorts_post_closed {p : PortId} (b : State → NoteBody) (c : PortId → State → Bool)
    (h : s.isOpen p = false) :
    (forPorts (fun q t => if c q t then t.post q (b t) else t) s).isOpen p = false ∧
      (forPorts (fun q t => if c q t then t.post q (b t) else t) s).queue p = s.queue p := by
  refine forPorts_keeps (P := fun t => t.isOpen p = false ∧ t.queue p = s.queue p) (fun q t ht => ?_) s ⟨h, rfl⟩
  split
  · exact ⟨by simp [ht.1], by rw [post_closed_queue t (b t) ht.1]; exact ht.2⟩
  · exact ht

theorem leaveInput_closed {p : PortId} (k : LineId) (h : s.isOpen p = false) :
    (s.leaveInput k).isOpen p = false ∧ (s.leaveInput k).queue p = s.queue p := by
  unfold leaveInput
  split
  · exact forPorts_post_closed s (fun _ => .inputStopped k) (fun q t => (t.subs q).getLsbD k.val) h
  · exact ⟨h, rfl⟩

theorem linesSessionEnd_closed {p : PortId} (r : PortId) (h : s.isOpen p = false) :
    (s.linesSessionEnd r).isOpen p = false ∧ (s.linesSessionEnd r).queue p = s.queue p := by
  refine forLines_keeps (P := fun t => t.isOpen p = false ∧ t.queue p = s.queue p) (fun k t ht => ?_) s ⟨h, rfl⟩
  unfold lineSessionEnd
  split
  · exact ht
  · split
    · exact ht
    · have h1 := leaveInput_closed (t.orphanResolve k) (p := p) k ht.1
      exact ⟨h1.1, h1.2.trans ht.2⟩

theorem planSessionEnd_closed {p : PortId} (r : PortId) (h : s.isOpen p = false) :
    (s.planSessionEnd r).queue p = s.queue p := by
  unfold planSessionEnd proposerEnds
  repeat' split
  · rfl
  · exact (forPorts_post_closed s _ (fun q _ => _) h).2
  · rfl
  · rfl
  · rfl

/-- A session end clears the port's queue: no entry, no enabled kind, the counter kept (R167). -/
theorem endSession_queue (p : PortId) : (s.endSession p).queue p = (s.queue p).cleared := by
  have h0 : ((s.modPort p Port.ended).modQueue p NoteQueue.cleared).isOpen p = false := by
    show ((s.modPort p Port.ended).port p).isOpen = false
    rw [port_modPort_same]; rfl
  have h1 := linesSessionEnd_closed _ p h0
  unfold endSession
  generalize hu : linesSessionEnd p ((s.modPort p Port.ended).modQueue p NoteQueue.cleared) = u at h1 ⊢
  have h2 : (u.journalSessionEnd p).isOpen p = u.isOpen p := rfl
  have h3 : (u.journalSessionEnd p).queue p = u.queue p := rfl
  rw [planSessionEnd_closed _ p (h2.trans h1.1), h3, h1.2, queue_modQueue_same, queue_modPort]

end State
end Sys2Proof.Machine
end

