-- ==== Sys2Proof/Tests/Slice0.lean ====
section
/-! SUPPORT. The model's own tests: the well-formedness smoke, the message encodings, each command on a small state, the worked
sequences of chapter 10, and for every statement with hypotheses a state and operands that meet them. -/

set_option maxRecDepth 20000

namespace Sys2Proof.Tests
open Sys2Proof.Machine

/-! ### The states of the tests -/

/-- The state a command answers. -/
def after (c : Instr) (s : State) : State :=
  match exec c s with
  | .next t => t
  | .fault _ => s
  | .refused _ => s

/-- A count under way, serial number 1, in which nothing waits. -/
def count1 : Count :=
  { serial := 1, running := true, move := .ordinary, ref := 0, raised := false, syncPosted := false, refinEdge := false,
    changes := [], readyPosted := 0 }

def eventLine (p : PortId) : Line := { powerOnLine with mode := .outputEvent, owner := some p, driven := some .low }
def inputLine : Line := { powerOnLine with mode := .input, owner := some 0, last := some .low }
def cycleLine : Line :=
  { powerOnLine with mode := .outputCycle, owner := some 0, driven := some .low, active := some ⟨0, 0, .low⟩ }
def openPort : Port := { powerOnPort false false with isOpen := true, session := 1 }
def allNotes : NoteQueue := { powerOnNotes with enable := 0xFF }

/-- Ports 0 and 1 open with every notification enabled and both subscribed to LINE1. Of port 0: LINE0 in OUTPUT_EVENT, LINE1 in
INPUT, LINE2 in OUTPUT_CYCLE. LINE3 is an unowned retained OUTPUT_EVENT line, LINE4 an OUTPUT_EVENT line of port 1. -/
def world : State := State.settle
  { State.reset with
    count := count1
    time := { powerOnTime Config.resetStraps with t := 1, phase := 1 }
    lines := (((((Vector.replicate 16 powerOnLine).set 0 (eventLine 0)).set 1 inputLine).set 2 cycleLine).set 3
      { eventLine 0 with owner := none, retain := true }).set 4 (eventLine 1)
    ports := ((Vector.replicate 4 (powerOnPort false false)).set 0 openPort).set 1 openPort
    notes := ((Vector.replicate 4 powerOnNotes).set 0 allNotes).set 1 allNotes
    journal := { powerOnJournal with subs := #v[2, 2, 0, 0] } }

def entry (n : BitVec 32) (k : LineId) (kind : ActionKind) (width : Phase) (due : TimeCount) : Entry :=
  ⟨n, some 0, k, kind, width, due, .runLate, .any, true, 7, none⟩
def withEntries (es : List Entry) : State := world.setEntries es
def withLine (k : LineId) (l : Line) : State := (world.modLine k fun _ => l).settle
def withCount (c : Count) : State := { world with count := c }
def withSync (u : SyncUnit) : State := { world with sync := u }
/-- A frame boundary event waits. -/
def boundary : State := withCount { count1 with raised := true }
def proposal (st : ProposalState) (remaining : Nat) : Proposal :=
  ⟨9, 0, { powerOnPlan Config.resetStraps with frameLength := 50000 }, 2, 0, remaining, st, some (0, 12)⟩
/-- A proposal of port 0 stands, and its request is held deferred. -/
def withProposal (x : Proposal) (s : State) : State :=
  (s.setProposal (some x)).modPort 0 fun q => { q with deferred := [⟨0x60, 12, .plan⟩] }
/-- A CYCLE_STAGE of port 0 with id 8 waits on LINE2. -/
def staged (g : Program) (s : State) : State :=
  (s.modLine 2 fun l => { l with staged := some ⟨g, some (0, 8)⟩ }).modPort 0 fun q => { q with deferred := [⟨0x35, 8, .line 2⟩] }
def capture1 : Record := ⟨5, 1, .rise, 1, 0, 1, .free, 0, 3, 0⟩

/-! ### Well-formedness -/

theorem test_wf_refuses_known_kind_as_unknown : (Instr.unknownKind 0 0x20 1 []).wf = false := by decide
theorem test_wf_refuses_body_of_29 : (Instr.unknownKind 0 0x7F 1 (List.replicate 29 0)).wf = false := by decide
theorem test_wf_accepts_body_of_28 : (Instr.unknownKind 0 0x7F 1 (List.replicate 28 0)).wf = true := by decide
theorem test_wf_accepts_any_code : (Instr.lineDrive 0 1 255 255).wf = true := by decide

/-! ### Messages (chapter 9) -/

theorem test_crc_time_read : crc8 [0x10, 0x01, 0x00] = 0xAC := by decide
theorem test_parse_time_read : parseFrame 2 [0x10, 0x01, 0x00, 0xAC, 0x55] = some (.timeRead 2 1) := by decide
theorem test_parse_bad_crc : parseFrame 2 [0x10, 0x01, 0x00, 0xAD] = none := by decide
theorem test_parse_wrong_length : parseFrame 2 ([0x10, 0x01, 0x01, 0x00] ++ [crc8 [0x10, 0x01, 0x01, 0x00]]) = none := by
  decide
theorem test_parse_unknown_kind :
    parseFrame 1 ([0x7F, 0x09, 0x01, 0xEE] ++ [crc8 [0x7F, 0x09, 0x01, 0xEE]]) = some (.unknownKind 1 0x7F 9 [0xEE]) := by
  decide
/-- The ACTION_POST written out in 9.3. -/
theorem test_action_post_bytes :
    requestFields (.actionPost 0 0x21 3 4 50 10000 1 0 1 7) = some (0, 0x20, 0x21,
      [0x03, 0x04, 0x00, 0x00, 0x32, 0x00, 0x00, 0x00, 0x00, 0x27, 0x10, 0x01, 0x00, 0x01, 0x00, 0x07]) := by decide
theorem test_empty_response_is_seven_zeros : (State.reset.choose 0).bytes = List.replicate 7 0 := by decide
theorem test_time_answer_length : (Body.bytes (.time world.timeSnapshot)).length = 26 := by decide
theorem test_status_answer_length : (Body.bytes (.status (world.statusReport 0))).length = 15 := by decide
theorem test_journal_answer_length :
    (Body.bytes (.journal (.gap 2 :: List.replicate 5 (.capture capture1)) 251)).length = 129 := by decide

/-! ### Resets, pins and counts -/

theorem test_reset_assert_straps :
    (after (.resetNAssert ⟨true, false, true⟩) world).time.len = 125000 ∧
      (after (.resetNAssert ⟨true, false, true⟩) world).sync.state = .acquire ∧
      (after (.resetNAssert ⟨true, false, true⟩) world).line 0 = powerOnLine := by decide
theorem test_reset_release : (after .resetNRelease (State.powerOn true Config.resetStraps)) = State.reset := by decide
theorem test_prst_assert_frees_lines :
    ((after (.prstAssert 0) world).line 0).mode = .off ∧ ((after (.prstAssert 0) world).port 0).isOpen = false ∧
      (after (.prstAssert 0) world).isOpen 1 = true := by decide
theorem test_prst_release : (((after (.prstAssert 0) world).port 0).prstLow, ((after (.prstRelease 0)
    (after (.prstAssert 0) world)).port 0).prstLow) = (true, false) := by decide
theorem test_cclk_insertion : (after (.cclkCount .low 0) { world with
    time := { world.time with run := .opened }, sync := { world.sync with c := 3 } }).time.t = 1 := by decide
/-- A deletion from phase L − 1 begins the next frame at phase 1 (R4). -/
theorem test_cclk_deletion_over_boundary :
    let s := after (.cclkCount .low 0) { world with
      time := { world.time with run := .opened, phase := 99999 }, sync := { world.sync with c := -3 } }
    (s.time.t, s.time.phase, s.time.frame, s.count.raised, s.sync.c) = (3, 1, 1, true, -2) := by decide

/-- The fall of CS_n in the count of a PRST_n release is handled in the next count (R151). -/
theorem test_prst_release_takes_its_count :
    let s := after (.prstRelease 0) (after (.prstAssert 0) world)
    let t := after (.responseChoice 0) s
    (s.count.serial, t.count.serial, (t.port 0).chosen.isSome) = (1, 2, true) := by decide
/-- An ignored transaction ends in a count of its own, before the next fall (R135). -/
theorem test_ignored_rise_takes_its_count :
    let s := after (.transactionEnd 0 []) (world.modPort 0 fun q => { q with csLow := true })
    let t := after (.responseChoice 0) s
    ((s.port 0).csLow, s.count.serial, t.count.serial) = (false, 1, 2) := by decide

/-! ### Events -/

theorem test_holdover_limit_expires :
    (after .holdoverLimitExpiry { boundary with
      sync := { boundary.sync with state := .holdover, holdoverCount := 4 }
      plan := { boundary.plan with record := { boundary.plan.record with holdoverLimit := 5 } } }).sync.state = .acquire := by
  decide
theorem test_vote_window_expires :
    ((after .voteWindowExpiry (withProposal (proposal .voting 1) boundary)).port 0).responses =
      [⟨0x60, 12, .expired, .propose 9 none 0 0, 1⟩] := by decide
/-- The plan application of 10.2 at one controller: the frame runs with the new L and the request is answered OK. -/
theorem test_plan_applies :
    let t := after .frameBoundaryEvent (withProposal (proposal .agreed 8) { boundary with time := { boundary.time with frame := 122 } })
    (t.plan.number, t.time.len, t.plan.proposal, (t.port 0).responses) =
      (1, 50000, none, [⟨0x60, 12, .ok, .propose 9 none 122 1, 1⟩]) := by decide
theorem test_swap_is_forced_low :
    let t := after .frameBoundaryEvent (staged ⟨10, 200000, .none⟩ boundary)
    (t.line 2).active = some ⟨10, 200000, .low⟩ ∧ (t.queue 0).entries.map (·.body) = [.programForced 2 0] := by decide
theorem test_refin_edge_is_measured :
    let t := after .refinEdge { world with
      sync := { world.sync with state := .acquire, alignedRun := 3, refinLast := some .low } }
    (t.sync.state, t.sync.lastE, t.sync.c) = (.locked, 2, 2) := by decide
/-- 10.5: the step count q+1, from T 506,400 at phase 400 with e = +400. -/
theorem test_backward_step :
    let t := after .backwardStep { world with
      time := { world.time with t := 506400, frame := 506, phase := 400, len := 1000, epoch := 7 }
      plan := { world.plan with record := { world.plan.record with frameLength := 1000 } }
      sync := { world.sync with state := .realign, stepOrder := some ⟨400, .realign⟩ } }
    (t.time.t, t.time.frame, t.time.phase, t.time.epoch) = (506000, 506, 0, 8) := by decide

/-- 10.1 at the end of the edge count: the five entries, on lines 0 (port 0's LINE3), 4 (LINE9) and 5 (LINE10). -/
def beforeForward : State := State.settle
  { world with
    time := { world.time with t := 30700, frame := 30, phase := 700, len := 1000, epoch := 2 }
    plan := { world.plan with record := { world.plan.record with frameLength := 1000 } }
    sync := { world.sync with state := .realign, lastE := -300, measured := true, stepOrder := some ⟨-300, .realign⟩ }
    lines := ((world.lines.set 0 { eventLine 0 with driven := some .high }).set 4 { eventLine 1 with driven := some .high }).set 5
      (eventLine 1)
    schedule := ⟨[⟨700, some 0, 0, .pulseHigh, 100, 30660, .skip, .any, true, 0, some ⟨30760, .onTime⟩⟩,
      ⟨710, some 1, 4, .pulseLow, 40, 30800, .runLate, .held, true, 0, none⟩,
      ⟨711, some 1, 4, .set, 0, 30900, .skip, .any, true, 0, none⟩,
      ⟨712, some 1, 5, .pulseHigh, 25, 30950, .runLate, .any, true, 0, none⟩,
      ⟨701, some 0, 0, .toggle, 0, 31000, .skip, .any, true, 0, none⟩], 800⟩ }

/-- 10.1, the step count: time, lines and list at its end. -/
theorem test_forward_step_state :
    let t := after .forwardStep beforeForward
    (t.time.t, t.time.frame, t.time.phase, t.time.epoch) = (31000, 31, 0, 3) ∧
      ((t.line 0).driven, (t.line 4).driven, (t.line 5).driven) = (some .high, some .high, some .high) ∧
      t.schedule.entries = [⟨712, some 1, 5, .pulseHigh, 25, 30950, .runLate, .any, true, 0, some ⟨31025, .late⟩⟩] := by decide

/-- 10.1, the step count: the notifications of each port but for SYNC_CHANGE, in order, and the one SYNC_CHANGE. -/
theorem test_forward_step_notifications :
    let t := after .forwardStep beforeForward
    let results (p : PortId) := ((t.queue p).entries.map (·.body)).filter fun b => decide (b.kind ≠ .syncChange)
    results 0 = [.actionResult 700 0 0 .done 31000 3, .actionResult 701 0 0 .done 31000 3] ∧
      results 1 = [.actionResult 710 0 4 .unsynced 31000 3, .actionResult 711 0 4 .skipped 31000 3] ∧
      ((t.queue 0).entries.map (·.body)).filter (fun b => decide (b.kind = .syncChange)) = [.syncChange .realign 3 (-300)] := by
  decide

theorem test_action_due :
    let t := after .actionDue (withEntries [entry 1 0 .set 0 1, entry 2 0 .clear 0 9])
    (t.schedule.entries.map (·.number), (t.line 0).driven, (t.queue 0).entries.map (·.body)) =
      ([2], some .high, [.actionResult 1 7 0 .done 1 0]) := by decide
theorem test_pulse_trailing_edge :
    let t := after .pulseTrailingEdge (withEntries [{ entry 1 0 .pulseHigh 3 0 with pulse := some ⟨1, .late⟩ }])
    (t.schedule.entries, (t.line 0).driven, (t.queue 0).entries.map (·.body)) =
      ([], some .low, [.actionResult 1 7 0 .late 1 0]) := by decide
theorem test_line_level_change :
    let t := after (.lineLevelChange 1 .high) world
    (t.time.t, t.journal.records.map (·.readers), t.journal.counter, (t.line 1).last) = (2, [3], 2, some .high) := by decide

/-- Two changes of one count with a full journal whose first record is port 0's only unread one: the first capture makes port 0's
missed count 1 and posts, the second makes its unread count 1 and posts nothing (R84). -/
theorem test_journal_ready_once_per_count :
    let s := State.settle { (withLine 0 inputLine) with
      count := { count1 with changes := [(0, .rise), (1, .rise)] }
      journal := ⟨{ capture1 with readers := 1 } :: List.replicate 255 { capture1 with readers := 2 }, 300, #v[2, 1, 0, 0],
        #v[0, 0, 0, 0]⟩ }
    let t := after (.lineLevelChange 0 .high) s
    let u := after (.lineLevelChange 1 .high) t
    (t.queue 0).entries.map (·.body) = [.journalReady 0 1] ∧ t.unreadCount 0 = 0 ∧ u.unreadCount 0 = 1 ∧
      (u.queue 0).entries = (t.queue 0).entries ∧ t.count.readyPosted = 1 := by decide

/-! ### The link -/

/-- An answer waits at port 0. -/
def answeredOnce : State := after (.timeRead 0 1) world

theorem test_response_choice :
    (((after (.responseChoice 0) answeredOnce).port 0).chosen.map (·.bytes.length)) = some 33 := by decide
/-- MISO_n: not driven while CS_n is high, then the chosen response's bytes and 0xFF, and not driven in port reset. -/
theorem test_miso :
    let t := after (.responseChoice 0) answeredOnce
    (answeredOnce.miso 0 0, t.miso 0 0, t.miso 0 33, (after (.prstAssert 0) t).miso 0 0) = (none, some 0x10, some 0xFF, none) := by
  decide
/-- The bits of the first byte, 0x10, most significant bit first, the first bit of a 0xFF after the response, and not driven. -/
theorem test_miso_bits :
    let t := after (.responseChoice 0) answeredOnce
    ((List.range 8).map (t.misoBit 0), t.misoBit 0 264, answeredOnce.misoBit 0 0) =
      ([some false, some false, some false, some true, some false, some false, some false, some false], some true, none) := by
  decide
/-- What MISO_n carried against eleven clocked bits: the first byte, and three bits of a second one. -/
theorem test_miso_sent :
    let t := after (.transactionEnd 0 (List.replicate 11 false)) (after (.responseChoice 0) answeredOnce)
    ((t.port 0).misoSent.length, bytesOfBits (t.port 0).misoSent) = (11, [0x10]) := by decide
/-- A whole transaction that fetches the answer and carries a LINE_DRIVE of LINE0 to HIGH. -/
theorem test_transaction_takes_and_settles :
    let t := after (.transactionEnd 0 (bitsOfBytes (frameBytes 0x33 2 [0, 1] ++ List.replicate 30 0)))
      (after (.responseChoice 0) answeredOnce)
    ((t.line 0).driven, (t.port 0).responses.map (·.kind), (t.port 0).chosen) = (some .high, [0x33], none) := by decide
theorem test_transaction_bad_frame :
    ((after (.transactionEnd 0 (List.replicate 20 true)) (after (.responseChoice 0) answeredOnce)).port 0).badFrame = true := by
  decide
theorem test_none : ((after (.noneRequest 0 1) answeredOnce).port 0).responses.length = 1 := by decide
theorem test_unknown_kind :
    ((after (.unknownKind 3 0x7F 9 []) world).port 3).responses = [⟨0x7F, 9, .unknownKind, .empty, 1⟩] := by decide
theorem test_open :
    ((after (.openSession 2 1 3 6) world).port 2).isOpen = true ∧ (after (.openSession 2 1 3 6) world).subs 2 = 6 := by decide
theorem test_open_refuses_unnamed_bits :
    ((after (.openSession 2 1 0x100 6) world).port 2).responses.map (·.result) = [.badValue] := by decide
theorem test_close :
    ((after (.closeSession 0 4) answeredOnce).port 0).responses.map (·.kind) = [0x02] ∧
      ((after (.closeSession 0 4) answeredOnce).line 1).mode = .off := by decide
theorem test_status_read :
    ((after (.statusRead 3 1) world).port 3).responses.map (·.body) =
      [.status ⟨3, 0, .free, 0, 0, none, 0, 0, 0, 0⟩] := by decide
theorem test_time_read :
    (answeredOnce.port 0).responses.map (·.body) = [.time ⟨1, 0, 1, 100000, .free, 0, 0, 0, 0⟩] := by decide

/-! ### The requests of the blocks -/

theorem test_action_post_future :
    (after (.actionPost 0 1 0 4 5 100 1 0 1 7) world).schedule = ⟨[⟨1, some 0, 0, .pulseHigh, 5, 100, .runLate, .any, true, 7, none⟩], 2⟩ := by
  decide
theorem test_action_post_late_pulse :
    (after (.actionPost 0 1 0 4 5 1 1 0 1 7) world).schedule.entries.map (·.pulse) = [some ⟨6, .late⟩] := by decide
theorem test_action_cancel :
    (after (.actionCancel 0 1 2 7) (withEntries [entry 1 0 .set 0 9, { entry 2 0 .set 0 9 with tag := 8 }])).schedule.entries.map
      (·.number) = [2] := by decide
theorem test_action_query :
    ((after (.actionQuery 1 1 1) (withEntries [entry 1 0 .set 0 9])).port 1).responses.map (·.body) =
      [.query (some (entry 1 0 .set 0 9)) 1 0] := by decide
theorem test_line_claim_adopts :
    let t := after (.lineClaim 1 1 3) (withEntries [{ entry 1 3 .set 0 9 with owner := none, notify := false }])
    ((t.line 3).owner, t.schedule.entries.map (·.owner)) = (some 1, [some 1]) := by decide
theorem test_line_release :
    let t := after (.lineRelease 0 1 1) world
    ((t.line 1).owner, (t.queue 0).entries.map (·.body), (t.queue 1).entries.map (·.body)) =
      (none, [.inputStopped 1], [.inputStopped 1]) := by decide
theorem test_line_config :
    let t := after (.lineConfig 0 1 0 3 1 1 2 1) world
    ((t.line 0).mode, (t.line 0).safe, (t.line 0).active) = (.outputCycle, .high, some ⟨0, 0, .low⟩) := by decide
theorem test_line_drive : (after (.lineDrive 0 1 0 1) world).outputs.linePins[0] = .high := by decide
theorem test_line_query :
    ((after (.lineQuery 1 1 0) world).port 1).responses.map (·.body) = [.lineRecord (some ⟨0, eventLine 0, 0, 1, 0⟩)] := by
  decide
theorem test_cycle_stage_supersedes :
    let t := after (.cycleStage 0 9 2 1 2 0) (staged ⟨5, 6, .none⟩ world)
    ((t.port 0).responses.map (·.result), (t.port 0).deferred) = ([.superseded], [⟨0x35, 9, .line 2⟩]) := by decide
theorem test_subscribe : (after (.subscribe 0 1 5) world).subs 0 = 5 := by decide
theorem test_journal_read_retires :
    let t := after (.journalRead 0 1 6) (world.setRecords [{ capture1 with sequence := 4, readers := 1 }, capture1])
    (t.journal.records.map (·.readers), (t.port 0).responses.map (·.result)) = ([2], [.ok]) := by decide

/-- 10.4 after event 4: the entries of port 1's queue, with the counter at 43. -/
def queued : State := State.settle <| world.modQueue 1 fun q =>
  { q with entries := [⟨42, .syncChange .realign 0 0, 2, 0⟩, ⟨41, .actionResult 930 0 4 .done 1 0, 0, 0⟩], counter := 43 }

theorem test_note_read :
    ((after (.noteRead 1 1) queued).port 1).responses.map (·.body) =
      [.note ⟨.ordinary ⟨42, .syncChange .realign 0 0, 2, 0⟩, 2, 0⟩] := by decide
/-- 10.4, events 5 and 7. -/
theorem test_note_ack :
    ((after (.noteAck 1 1 40) queued).port 1).responses.map (·.result) = [.notCurrent] ∧
      ((after (.noteAck 1 1 42) queued).queue 1).entries.map (·.number) = [41] := by decide
theorem test_plan_propose :
    (after (.planPropose 0 12 ⟨50000, 0, 1000, 8, 0, 0, 64, 32⟩) world).plan.proposal.map (fun x => (x.required, x.state)) =
      some (2, .voting) := by decide
theorem test_plan_vote :
    (after (.planVote 1 1 9 1) (withProposal (proposal .voting 8) world)).plan.proposal.map (·.state) = some .agreed := by decide
theorem test_plan_withdraw :
    ((after (.planWithdraw 0 13) (withProposal (proposal .voting 8) world)).port 0).responses.map (·.result) =
      [.withdrawn, .ok] := by decide
theorem test_plan_read :
    ((after (.planRead 1 1) world).port 1).responses.map (·.body) = [.planRead ⟨powerOnPlan Config.resetStraps, 0, none⟩] := by
  decide


/-! ### States and operands that meet the hypotheses of the statements, at the ends of their ranges -/

/-- The last count of frame 0. -/
def atEnd : State := { world with time := { world.time with phase := 99999 } }
def inReset : State := State.powerOn true Config.resetStraps
/-- Port 0 held in port reset. -/
def held : State := world.modPort 0 fun q => { q with prstLow := true }
def withRun (c : Int) (performed : Nat) : State :=
  { world with time := { world.time with run := .opened, performed := performed }, sync := { world.sync with c := c } }
def ordered (e : Int) : State := withSync { world.sync with state := .realign, stepOrder := some ⟨e, .realign⟩ }
def inState (st : SyncState) (s : State) : State := { s with sync := { s.sync with state := st } }
def withLimit (n : BitVec 16) (s : State) : State :=
  { s with plan := { s.plan with record := { s.plan.record with holdoverLimit := n } } }
def pulse (n : BitVec 32) (g : Pulse) : Entry := { entry n 0 .pulseHigh 3 0 with pulse := some g }

theorem witness_StepTakesFrontCommand :
    ({ world with pending := [.frameBoundaryEvent, .resetNRelease] } : State).pending = .frameBoundaryEvent :: [.resetNRelease] := by
  decide
theorem witness_EmptyQueueIdles : State.reset.pending = [] := by decide
theorem witness_Settling :
    (world.line 0).mode ≠ .outputCycle ∧ (world.line 2).mode = .outputCycle ∧ (world.line 2).active = some ⟨0, 0, .low⟩ := by
  decide
theorem witness_AtResetValues :
    State.reset.atResetValues ⟨false, false, false⟩ ∧ (State.powerOn false ⟨true, true, true⟩).atResetValues ⟨true, true, true⟩ := by
  unfold State.atResetValues
  repeat' apply And.intro
  all_goals decide
theorem witness_FirstCount :
    State.reset.resetLow = false ∧ State.reset.count.running = false ∧ State.reset.count.raised = false ∧
      State.reset.count.refinEdge = false ∧ State.reset.count.changes = [] := by decide
theorem witness_PortResetClearsTheLink : world.resetLow = false ∧ (world.port 0).prstLow = false := by decide
theorem witness_PinCommands :
    world.settled ∧ inReset.settled ∧ inReset.resetLow = true ∧ held.settled ∧ (held.port 0).prstLow = true ∧
      held.resetLow = false := by decide
theorem witness_HeldPort :
    held.settled ∧ held.handles 0 = false ∧ inReset.handles 3 = false ∧ (held.port 0).chosen = none ∧
      requestFields (.timeRead 0 1) = some (0, 0x10, 1, []) := by decide
/-- A transaction that began while the port was held, after the release. -/
theorem witness_IgnoredTransaction :
    let s := world.modPort 0 fun q => { q with csLow := true }
    s.settled ∧ s.linkFree 0 ∧ (s.port 0).csLow = true ∧ (s.port 0).chosen = none ∧ (world.port 0).csLow = false := by decide

/-- The four clauses on a move, at the slew limit and one below it, at c one above and one below 0, and at both signs of e. -/
theorem witness_CountMakesOneMove :
    (world.resetLow = false ∧ world.endCount.sync.stepOrder = none ∧ world.endCount.time.run = .closed) ∧
    ((withRun 3 8).endCount.sync.stepOrder = none ∧
      (withRun 3 8).endCount.plan.record.slewLimit.toNat ≤ (withRun 3 8).endCount.time.performed) ∧
    ((withRun 0 0).endCount.sync.c = 0 ∧ (withRun 0 0).endCount.sync.stepOrder = none) ∧
    ((withRun 1 7).endCount.time.run = .opened ∧ 0 < (withRun 1 7).endCount.sync.c ∧
      (withRun 1 7).endCount.sync.stepOrder = none ∧
      (withRun 1 7).endCount.time.performed < (withRun 1 7).endCount.plan.record.slewLimit.toNat) ∧
    ((withRun (-1) 7).endCount.time.run = .opened ∧ (withRun (-1) 7).endCount.sync.c < 0 ∧
      (withRun (-1) 7).endCount.sync.stepOrder = none ∧
      (withRun (-1) 7).endCount.time.performed < (withRun (-1) 7).endCount.plan.record.slewLimit.toNat) ∧
    (ordered 1).endCount.sync.stepOrder = some ⟨1, .realign⟩ ∧ (ordered (-1)).endCount.sync.stepOrder = some ⟨-1, .realign⟩ := by
  decide

theorem witness_CountSamplesTheInputs :
    (world.endCount.line 0).mode ≠ .input ∧ (world.endCount.line 1).mode = .input ∧
      ((withLine 1 { inputLine with last := none }).endCount.line 1).last = none ∧
      (world.endCount.line 1).last = some .low ∧ pinLevel 0 1 = .low ∧
      edgeBetween .low (pinLevel 2 1) = some .rise ∧ (world.endCount.line 1).edge.matches .rise = true ∧
      ((withLine 1 { inputLine with edge := .fall }).endCount.line 1).edge.matches .rise = false := by decide

theorem witness_QuietCount :
    (withEntries [entry 1 0 .set 0 2]).settled ∧ (withEntries [entry 1 0 .set 0 2]).count.raised = false ∧
      (withEntries [entry 1 0 .set 0 2]).count.refinEdge = false ∧ (withEntries [entry 1 0 .set 0 2]).count.changes = [] ∧
      ∀ x ∈ (withEntries [entry 1 0 .set 0 2]).schedule.entries,
        ahead (withEntries [entry 1 0 .set 0 2]).time.t x.effective = true := by decide

/-- A forward step's count, in which its frame boundary event waits. -/
def forwarding : State := withCount { count1 with raised := true, move := .forward .realign }
/-- A backward step's count, in which its frame restart waits. -/
def restarting : State := withCount { count1 with raised := true, move := .backward }

/-- Each event of the statement waits in one of these states. -/
theorem witness_EventCommandsNow :
    boundary.boundaryWaits = true ∧ forwarding.forwardWaits = true ∧ restarting.backwardWaits = true ∧
      (withLimit 1 (inState .holdover boundary)).holdoverExpires = true ∧
      (withProposal (proposal .voting 1) boundary).voteExpires = true ∧
      (withEntries [entry 1 0 .set 0 1]).pendingDue = true ∧ (withEntries [pulse 1 ⟨1, .onTime⟩]).pulseDue = true := by decide

/-- Each event of the statement waits in the next count of one of these states, and none in `world`. -/
theorem witness_EventCommands :
    (atEnd.boundaryWaits = false ∧ atEnd.nextCount.boundaryWaits = true) ∧
    (withLimit 1 (inState .holdover atEnd)).nextCount.holdoverExpires = true ∧
    (withProposal (proposal .voting 1) atEnd).nextCount.voteExpires = true ∧
    ((ordered 5).backwardWaits = false ∧ (ordered 5).nextCount.backwardWaits = true) ∧
    ((ordered (-5)).forwardWaits = false ∧ (ordered (-5)).nextCount.forwardWaits = true) ∧
    ((withEntries [entry 1 0 .set 0 2]).pendingDue = false ∧ (withEntries [entry 1 0 .set 0 2]).nextCount.pendingDue = true) ∧
    ((withEntries [pulse 1 ⟨2, .onTime⟩]).pulseDue = false ∧ (withEntries [pulse 1 ⟨2, .onTime⟩]).nextCount.pulseDue = true) ∧
    world.settled ∧ world.boundaryWaits = false ∧ world.nextCount.boundaryWaits = false := by decide

theorem witness_FrameBoundary : boundary.boundaryTakenBy .frameBoundaryEvent ∧ forwarding.boundaryTakenBy .forwardStep :=
  ⟨Or.inl ⟨rfl, by decide⟩, Or.inr ⟨rfl, by decide⟩⟩
theorem witness_FrameBoundaryPlan :
    boundary.plan.proposal = none ∧ (withProposal (proposal .agreed 8) boundary).boundaryWaits = true ∧
      (withProposal (proposal .agreed 8) boundary).plan.proposal = some (proposal .agreed 8) ∧
      (withProposal (proposal .voting 2) boundary).plan.proposal = some (proposal .voting 2) ∧ 1 < (proposal .voting 2).remaining ∧
      (proposal .voting 1).remaining ≤ 1 ∧ (proposal .agreed 8).request = some (0, 12) ∧
      ((withProposal (proposal .agreed 8) boundary).port 0).deferred.find? (fun d => decide (d.owner = .plan)) =
        some ⟨0x60, 12, .plan⟩ ∧ (proposal .voting 1).required.getLsbD 1 = true := by decide
/-- A queue that a post reaches: the port is open, the kind enabled, and nothing is lost on the way. -/
theorem witness_Noted :
    let s := withProposal (proposal .agreed 8) boundary
    s.isOpen 1 = true ∧ (s.queue 1).enable.getLsbD (NoteBody.planApplied 1 0).kind.bit = true ∧
      ((after .frameBoundaryEvent s).queue 1).overflow = none ∧
      ((after .frameBoundaryEvent s).queue 1).entries.map (·.body) = [.planApplied 1 0] := by decide
theorem witness_FrameBoundaryClose :
    boundary.planApplies = false ∧ boundary.sync.state = .free ∧
      (∀ n ∈ [4, 65534, 65535],
        (withLimit 5 { boundary with sync := { boundary.sync with state := .holdover, holdoverCount := n } }).sync.state =
          .holdover) ∧
      ({ boundary with sync := { boundary.sync with state := .locked, missedRun := 1 } } : State).sync.missedRun < 2 ∧
      2 ≤ ({ boundary with sync := { boundary.sync with state := .acquire, missedRun := 2 } } : State).sync.missedRun ∧
      ({ boundary with sync := { boundary.sync with state := .realign, measured := true } } : State).sync.measured = true ∧
      (withProposal (proposal .agreed 8) boundary).plan.proposal = some (proposal .agreed 8) ∧
      (proposal .agreed 8).plan.refEnable = false ∧
      ({ proposal .agreed 8 with plan := powerOnPlan ⟨false, false, true⟩ } : Proposal).plan.refEnable = true ∧
      (inState .locked (withProposal (proposal .agreed 8) boundary)).sync.state ≠ .free ∧
      (inState .locked (withProposal (proposal .agreed 8) boundary)).boundaryWaits = true ∧
      (after .frameBoundaryEvent (inState .locked (withProposal (proposal .agreed 8) boundary))).sync.state ≠ .locked ∧
      boundary.count.syncPosted = false := by decide

theorem witness_FrameBoundarySwaps :
    (staged ⟨10, 20, .none⟩ boundary).boundaryWaits = true ∧ ((staged ⟨10, 20, .none⟩ boundary).line 2).mode = .outputCycle ∧
      ((staged ⟨10, 20, .none⟩ boundary).line 2).staged = some ⟨⟨10, 20, .none⟩, some (0, 8)⟩ ∧
      ((staged ⟨10, 20, .none⟩ boundary).port 0).deferred.find? (fun d => decide (d.owner = .line 2)) =
        some ⟨0x35, 8, .line 2⟩ ∧
      (boundary.line 2).staged = none ∧ (boundary.line 2).active = some ⟨0, 0, .low⟩ ∧
      (boundary.line 2).owner = some 0 ∧ (after .frameBoundaryEvent boundary).time.len.toNat ≤ (100000 : Phase).toNat ∧
      ((after .frameBoundaryEvent (staged ⟨10, 100000, .none⟩ boundary)).queue 0).overflow = none := by decide

/-- A program at the frame length itself (forced), one phase below it (kept), one without an owner and one LOW already. -/
theorem witness_ForcedProgram :
    let s (o : Option PortId) (g : Program) := withLine 2 { cycleLine with owner := o, active := some g }
    ((s (some 0) ⟨1, 1000, .none⟩).line 2).active = some ⟨1, 1000, .none⟩ ∧ (1000 : Phase).toNat ≤ (1000 : Phase).toNat ∧
      ((s (some 0) ⟨1, 1000, .none⟩).line 2).owner = some 0 ∧ ((s none ⟨1, 1000, .none⟩).line 2).owner = none ∧
      ((s (some 0) ⟨999, 0, .high⟩).line 2).active = some ⟨999, 0, .high⟩ ∧ (999 : Phase).toNat < (1000 : Phase).toNat ∧
      ((s (some 0) ⟨999, 0, .high⟩).line 2).staged = none ∧ ((s (some 0) ⟨999, 0, .high⟩).line 2).mode = .outputCycle ∧
      ((staged ⟨1, 1000, .none⟩ world).line 2).staged = some ⟨⟨1, 1000, .none⟩, some (0, 8)⟩ ∧
      ((staged ⟨1, 1000, .none⟩ world).line 2).owner = some 0 := by decide

theorem witness_HoldoverExpiry :
    let s := withLimit 5 { boundary with sync := { boundary.sync with state := .holdover, holdoverCount := 4 } }
    s.boundaryWaits = true ∧ s.sync.state = .holdover ∧ s.plan.record.holdoverLimit ≠ 0 ∧
      s.plan.record.holdoverLimit.toNat ≤ min (s.sync.holdoverCount + 1) 65535 ∧ s.planApplies = false := by decide
theorem witness_VoteExpiry :
    let s := withProposal (proposal .voting 1) boundary
    s.boundaryWaits = true ∧ s.plan.proposal = some (proposal .voting 1) ∧ (proposal .voting 1).remaining ≤ 1 ∧
      (proposal .voting 1).request = some (0, 12) ∧
      (s.port 0).deferred.find? (fun d => decide (d.owner = .plan)) = some ⟨0x60, 12, .plan⟩ ∧
      (proposal .voting 1).required.getLsbD 1 = true ∧ s.isOpen 1 = true ∧
      ((after .voteWindowExpiry s).queue 1).overflow = none := by decide
theorem witness_BackwardStep :
    (ordered 1).resetLow = false ∧ (ordered 1).backwardWaits = false ∧
      (ordered 1).endCount.sync.stepOrder = some ⟨1, .realign⟩ ∧ restarting.backwardWaits = true ∧
      restarting.count.syncPosted = false := by decide
theorem witness_ForwardStep :
    (ordered (-1)).resetLow = false ∧ (ordered (-1)).forwardWaits = false ∧
      (ordered (-1)).endCount.sync.stepOrder = some ⟨-1, .realign⟩ ∧ forwarding.forwardWaits = true ∧
      forwarding.count.syncPosted = false := by decide
/-- A list in order, with an entry that has been reached, one that is ahead, and a step ordered at phase 1. -/
theorem witness_ListInOrder :
    (withEntries [entry 1 0 .set 0 1, entry 2 0 .set 0 9]).listInOrder ∧ (ordered 1).listInOrder ∧
      (forwarding.setEntries [entry 1 0 .set 0 1]).listInOrder := by
  refine ⟨⟨⟨by decide, by decide, by decide, by decide, ?_⟩, by decide, ?_, by decide, by decide⟩,
    ⟨⟨by decide, by decide, by decide, by decide, ?_⟩, by decide, ?_, by decide, by decide⟩,
    ⟨⟨by decide, by decide, by decide, by decide, ?_⟩, by decide, ?_, by decide, by decide⟩⟩
  all_goals intro o h
  all_goals cases h
  decide
theorem witness_JumpedEntries :
    (withCount { count1 with move := .forward .realign }).count.move = .forward .realign ∧
      (entry 1 0 .set 0 0).effective ≠ world.time.t ∧ (pulse 1 ⟨0, .onTime⟩).pulse = some ⟨0, .onTime⟩ ∧
      (pulse 1 ⟨0, .onTime⟩).effective ≠ world.time.t ∧ (entry 1 0 .pulseLow 3 0).late = .runLate ∧
      ({ entry 1 0 .set 0 0 with late := .skip } : Entry).pulse = none ∧
      ({ entry 1 0 .set 0 0 with sync := .held } : Entry).sync = .held ∧ SyncState.realign ≠ .locked ∧
      SyncState.realign ≠ .holdover ∧ (entry 1 0 .set 0 1).effective = world.time.t ∧
      (withEntries [entry 1 0 .set 0 1]).schedule.entries = entry 1 0 .set 0 1 :: [] ∧
      ahead (withEntries [entry 1 0 .set 0 1]).time.t (entry 1 0 .set 0 1).effective = false ∧
      world.count.move.isForward = false ∧ heldAllows .any .free ∧ ¬heldAllows .held .free := by decide

/-- A due entry whose time is T itself, followed by one that is ahead by one; HELD fails in FREE and passes in LOCKED. -/
theorem witness_DueAction :
    let s := withEntries [entry 1 0 .pulseLow 4 1, entry 2 0 .set 0 2]
    s.settled ∧ s.schedule.entries = [entry 1 0 .pulseLow 4 1, entry 2 0 .set 0 2] ∧ (entry 1 0 .pulseLow 4 1).pulse = none ∧
      ahead s.time.t 1 = false ∧ (∀ y ∈ [entry 2 0 .set 0 2], ahead s.time.t y.effective = true) ∧
      s.count.move.isForward = false ∧ (s.line 0).mode = .outputEvent ∧ heldAllows .any s.sync.state ∧
      ¬heldAllows .held s.sync.state ∧ heldAllows .held .holdover := by decide
theorem witness_PulseTrailingEdge :
    let s := withEntries [pulse 1 ⟨1, .onTime⟩, pulse 2 ⟨1, .late⟩]
    s.settled ∧ s.schedule.entries = pulse 1 ⟨1, .onTime⟩ :: [pulse 2 ⟨1, .late⟩] ∧
      (pulse 1 ⟨1, .onTime⟩).pulse = some ⟨1, .onTime⟩ ∧ ahead s.time.t 1 = false ∧ (s.line 0).mode = .outputEvent := by decide
theorem witness_Placement :
    [entry 1 0 .set 0 2, entry 2 0 .set 0 2, entry 3 0 .set 0 9].Pairwise
      fun a b => forward 1 a.effective ≤ forward 1 b.effective := by decide
theorem witness_Counters :
    ([] : List (BitVec 1)).length + 1 < 2 ^ 1 ∧ [(1 : BitVec 2), 2].length + 1 < 2 ^ 2 ∧ (0 : BitVec 2) + 1 ∈ [(1 : BitVec 2), 2] ∧
      (6 : BitVec 16) + 1 ≠ 0 ∧ (6 : BitVec 16) + 1 ∉ [(8 : BitVec 16)] := by decide

theorem witness_NotOwned : world.notOwned 0 16 ∧ world.notOwned 0 4 ∧ world.notOwned 0 5 := by
  unfold State.notOwned; decide
theorem witness_ActionPostRefused :
    world.serving 0 ∧ world.ownsIn 0 1 1 .input ∧ world.ownsIn 0 0 0 .outputEvent := by decide
theorem witness_ActionPostRanges :
    ¬postInRange 6 0 1 0 0 ∧ ¬postInRange 4 0 1 0 0 ∧ ¬postInRange 1 1 1 0 0 ∧ ¬postInRange 1 0 3 0 0 ∧ postInRange 5 1 2 1 1 := by
  refine ⟨?_, ?_, ?_, ?_, ?_⟩ <;> decide
theorem witness_Horizon :
    outOfHorizon 1 (2 ^ 40 + 2) ∧ ¬outOfHorizon 1 (2 ^ 40 + 1) ∧ outOfHorizon 1 (0 - 2 ^ 40) ∧ ahead 1 2 = true := by decide
/-- The port quota reached with one entry, and the list full with entries of nobody. -/
theorem witness_ActionPostNoRoom :
    let q : State := { withEntries [entry 1 0 .set 0 9] with
      plan := { world.plan with record := { world.plan.record with portQuota := 1 } } }
    let f := withEntries (List.replicate 128 { entry 1 3 .set 0 9 with owner := none })
    q.serving 0 ∧ q.plan.record.portQuota.toNat ≤ q.entryCount 0 ∧ f.serving 0 ∧
      f.entryCount 0 < f.plan.record.portQuota.toNat ∧ 128 ≤ f.schedule.entries.length := by decide
theorem witness_FuturePost :
    world.serving 0 ∧ (world.line 0).owner = some 0 ∧ (world.line 0).mode = .outputEvent ∧
      ((ActionKind.set = .pulseHigh ∨ ActionKind.set = .pulseLow) ↔ (0 : Phase) ≠ 0) ∧
      (∀ due : TimeCount, due = 2 ∨ due = 2 ^ 40 + 1 →
        0 < (due - world.time.t).toNat ∧ (due - world.time.t).toNat ≤ 2 ^ 40) ∧
      world.entryCount 0 < world.plan.record.portQuota.toNat ∧ world.schedule.entries.length < 128 := by
  refine ⟨by decide, by decide, by decide, by decide, ?_, by decide, by decide⟩
  rintro due (rfl | rfl) <;> decide
theorem witness_LateSkipPost :
    world.serving 0 ∧ world.ownsIn 0 0 0 .outputEvent ∧ postInRange 1 0 2 0 0 ∧ (world.time.t - 1).toNat ≤ 2 ^ 40 ∧
      (world.time.t - (1 - 2 ^ 40)).toNat ≤ 2 ^ 40 := by decide
theorem witness_LateRunPost :
    world.serving 0 ∧ (world.time.t - 1).toNat ≤ 2 ^ 40 ∧ heldAllows .any world.sync.state ∧
      ¬heldAllows .held world.sync.state ∧ (1 : Phase) ≠ 0 ∧ world.entryCount 0 < world.plan.record.portQuota.toNat ∧
      world.schedule.entries.length < 128 ∧
      ((ActionKind.pulseHigh = .pulseHigh ∨ ActionKind.pulseHigh = .pulseLow) ↔ (1 : Phase) ≠ 0) := by decide
theorem witness_ActionCancel :
    let s := withEntries [entry 1 0 .set 0 9, { entry 2 4 .set 0 9 with owner := some 1 }, { entry 3 0 .set 0 9 with tag := 0 }]
    s.serving 0 ∧ (s.schedule.entries.map (·.number)).Nodup ∧ entry 1 0 .set 0 9 ∈ s.schedule.entries ∧
      (∀ x ∈ s.schedule.entries, x.number ≠ 0) ∧
      (∀ x ∈ s.schedule.entries, x.number = 2 → x.owner ≠ some 0) ∧ (∃ x ∈ s.schedule.entries, x.number = 2) ∧
      (0x10007 : BitVec 32).extractLsb' 0 16 ≠ 0 ∧ (0x10000 : BitVec 32).extractLsb' 0 16 = 0 ∧
      16 ≤ ((0x10 : BitVec 32).extractLsb' 0 8).toNat ∧ (0x100 : BitVec 32).extractLsb' 0 8 = lineByte 0 := by decide
/-- An entry that is IN_PULSE, chosen by each selector. -/
theorem witness_ActionCancelPulse :
    let s := withEntries [pulse 1 ⟨9, .onTime⟩, pulse 2 ⟨9, .late⟩]
    s.serving 0 ∧ (s.schedule.entries.map (·.number)).Nodup ∧
      (∃ x ∈ s.schedule.entries, x.number = 1 ∧ x.owner = some 0) ∧ (pulse 1 ⟨9, .onTime⟩).tag = 7 ∧
      (after (.actionCancel 0 1 2 7) s).schedule.entries = [] ∧ ((after (.actionCancel 0 1 1 1) s).line 0).driven = some .low := by
  decide
theorem witness_Reads :
    let s := queued.setEntries [entry 1 0 .set 0 9]
    s.canTake 1 ∧ s.settled ∧ s.isOpen 1 = true ∧ s.canTake 3 ∧ s.isOpen 3 = false ∧
      (s.queue 1).entries ≠ [] ∧ (s.queue 0).entries = [] ∧ (s.queue 0).overflow = none ∧ 16 ≤ (16 : Byte).toNat ∧
      (∀ x ∈ s.schedule.entries, x.number ≠ 0) ∧ (s.schedule.entries.map (·.number)).Nodup := by decide
theorem witness_ReadsOverflow :
    let s := State.settle (world.modQueue 0 fun q => { q with overflow := some ⟨7, 1, 1⟩ })
    s.canTake 0 ∧ s.settled ∧ (s.queue 0).entries = [] ∧ (s.queue 0).overflow = some ⟨7, 1, 1⟩ := by decide

theorem witness_LineClaim :
    world.serving 0 ∧ 16 ≤ (16 : Byte).toNat ∧ (world.line 15).owner = none ∧ (world.line 15).retain = false ∧
      (world.line 3).owner = none ∧ (world.line 3).retain = true ∧ (world.line 0).owner = some 0 ∧
      (world.line 4).owner = some 1 := by decide
theorem witness_LineRelease :
    let s := withEntries [entry 1 0 .set 0 9]
    s.serving 0 ∧ (s.line 0).owner = some 0 ∧ (∃ x ∈ s.schedule.entries, x.line = 0) ∧ (s.line 1).owner = some 0 ∧
      (∀ x ∈ s.schedule.entries, x.line ≠ 1) ∧ (s.line 1).mode = .input ∧ (s.subs 1).getLsbD 1 = true ∧
      (s.line 1).staged = none := by decide
theorem witness_LineReleaseStaged :
    let s := staged ⟨10, 20, .none⟩ world
    s.serving 0 ∧ (s.line 2).owner = some 0 ∧ (∀ x ∈ s.schedule.entries, x.line ≠ 2) ∧
      (s.line 2).staged = some ⟨⟨10, 20, .none⟩, some (0, 8)⟩ ∧
      (s.port 0).deferred.find? (fun d => decide (d.owner = .line 2)) = some ⟨0x35, 8, .line 2⟩ := by decide
theorem witness_LineConfig :
    world.serving 0 ∧ (world.line 0).owner = some 0 ∧ 3 < (4 : Byte).toNat ∧ 2 < (3 : Byte).toNat ∧ 1 < (2 : Byte).toNat ∧
      Mode.input ≠ (world.line 0).mode ∧ Mode.outputEvent = (world.line 0).mode ∧
      (∃ x ∈ (withEntries [entry 1 0 .set 0 9]).schedule.entries, x.line = 0) ∧
      ∀ x ∈ world.schedule.entries, x.line ≠ 0 := by decide
theorem witness_LineConfigStaged :
    let s := staged ⟨10, 20, .none⟩ world
    s.serving 0 ∧ (s.line 2).owner = some 0 ∧ Mode.off ≠ (s.line 2).mode ∧ (∀ x ∈ s.schedule.entries, x.line ≠ 2) ∧
      (s.line 2).staged = some ⟨⟨10, 20, .none⟩, some (0, 8)⟩ ∧
      (s.port 0).deferred.find? (fun d => decide (d.owner = .line 2)) = some ⟨0x35, 8, .line 2⟩ := by decide
theorem witness_LineDrive :
    world.serving 0 ∧ world.ownsIn 0 1 1 .input ∧ world.ownsIn 0 0 0 .outputEvent ∧ 1 < (2 : Byte).toNat := by decide
theorem witness_CycleStage :
    world.serving 0 ∧ world.ownsIn 0 2 2 .outputCycle ∧ world.ownsIn 0 0 0 .outputEvent ∧ 2 < (3 : Byte).toNat ∧
      world.time.len.toNat ≤ (100000 : Phase).toNat ∧ (99999 : Phase).toNat < world.time.len.toNat ∧
      (world.line 2).staged = none ∧ (staged ⟨5, 6, .none⟩ world).serving 0 ∧
      ((staged ⟨5, 6, .none⟩ world).port 0).deferred.find? (fun d => decide (d.owner = .line 2)) =
        some ⟨0x35, 8, .line 2⟩ := by decide

/-- A change that waits on LINE1, with room, with a full list, and with nobody subscribed. -/
theorem witness_LevelChange :
    let s := withCount { count1 with changes := [(1, .rise)] }
    let f := s.setRecords (List.replicate 256 capture1)
    let n : State := { s with journal := { s.journal with subs := #v[0, 0, 0, 0] } }
    s.settled ∧ s.count.changes = [(1, .rise)] ∧ s.readersOf 1 ≠ 0 ∧ s.journal.records.length < 256 ∧ s.unread 0 = [] ∧
      f.settled ∧ f.readersOf 1 ≠ 0 ∧ f.journal.records.length = 256 ∧ n.settled ∧ n.readersOf 1 = 0 ∧
      s.count.readyPosted.getLsbD 0 = false ∧ f.missed 0 = 0 ∧ capture1.readers.getLsbD 0 = true := by decide
/-- Two changes that wait in one count. -/
theorem witness_LevelChanges :
    let s := withCount { count1 with changes := [(1, .rise), (5, .fall)] }
    s.settled ∧ s.count.changes = (1, .rise) :: [(5, .fall)] ∧ (∀ x ∈ [((5 : LineId), Edge.fall)], (1 : LineId) < x.1) := by decide
theorem witness_Subscribe : world.serving 0 ∧ world.serving 1 := by decide
theorem witness_JournalRead :
    let s := (world.setRecords [capture1]).setMissed 0 2
    s.serving 0 ∧ 6 < (7 : Byte).toNat ∧ (0 : Byte).toNat = 0 ∧ 1 ≤ (1 : Byte).toNat ∧ (6 : Byte).toNat ≤ 6 ∧
      world.missed 0 = 0 ∧ s.missed 0 = 2 := by decide

/-- Every case of the measurement: FREE, a stray, each state at |e| = 2 and 3, an error at W and one above it. -/
theorem witness_RefinEdge :
    let e (u : SyncUnit) (ph : Phase) : State :=
      { world with count := { count1 with refinEdge := true }, sync := u, time := { world.time with phase := ph } }
    let u := world.sync
    (e u 1).settled ∧ (e u 1).sync.state = .free ∧ (e { u with state := .locked, measured := true } 1).settled ∧
      (∀ st ∈ [SyncState.acquire, .locked, .realign, .holdover],
        (e { u with state := st, alignedRun := 3 } 2).settled ∧ (e { u with state := st, alignedRun := 2 } 3).settled ∧
          (e { u with state := st } 2).count.raised = false) ∧
      errorAt 2 100000 = 2 ∧ errorAt 99997 100000 = -3 ∧ errorAt 50000 100000 = 50000 ∧ errorAt 50001 100000 = -49999 ∧
      world.plan.record.stepPolicy = .allowStep ∧ world.plan.record.slipWindow.toNat < (1001 : Int).natAbs ∧
      (1000 : Int).natAbs ≤ world.plan.record.slipWindow.toNat ∧ (world.queue 0).enable.getLsbD 2 = true ∧
      (∀ n ∈ (queued.queue 1).entries, n.stamp = queued.count.serial → n.body.kind ≠ .syncChange) ∧
      (withCount { count1 with raised := true, refinEdge := true }).boundaryWaits = true ∧
      (withCount { count1 with raised := true, refinEdge := true, move := .backward }).backwardWaits = true := by decide +kernel

theorem witness_PlanPropose :
    world.serving 0 ∧ world.plan.proposal = none ∧ (withProposal (proposal .voting 8) world).serving 1 ∧
      (999 : Phase).toNat < 1000 ∧ 1000 ≤ (1000 : Phase).toNat ∧ 128 < (129 : Byte).toNat ∧ (128 : Byte).toNat ≤ 128 ∧
      (∀ q : PortId, (2 : PortSet).getLsbD q.val = (decide (q ≠ 0) && world.isOpen q)) ∧
      (let lone := (world.modPort 1 fun q => { q with isOpen := false })
        ∀ q : PortId, (0 : PortSet).getLsbD q.val = (decide (q ≠ 0) && lone.isOpen q)) := by decide
theorem witness_PlanVote :
    let s := withProposal (proposal .voting 8) world
    s.serving 1 ∧ s.plan.proposal = some (proposal .voting 8) ∧ (proposal .voting 8).required.getLsbD 1 = true ∧
      (proposal .voting 8).required.getLsbD 0 = false ∧ (proposal .voting 8).accepted.getLsbD 1 = false ∧
      ({ proposal .voting 8 with accepted := 2 } : Proposal).accepted.getLsbD 1 = true ∧ (proposal .agreed 8).state = .agreed ∧
      (3 : Byte) ≠ 1 ∧ (3 : Byte) ≠ 2 ∧ (proposal .voting 8).request = some (0, 12) ∧
      (s.port 0).deferred.find? (fun d => decide (d.owner = .plan)) = some ⟨0x60, 12, .plan⟩ := by decide
theorem witness_PlanWithdraw :
    let s := withProposal (proposal .voting 8) world
    s.serving 0 ∧ s.serving 1 ∧ (proposal .voting 8).proposer = 0 ∧ (proposal .voting 8).proposer ≠ 1 ∧
      (withProposal (proposal .agreed 8) world).serving 0 := by decide

theorem witness_SelectFall :
    world.settled ∧ world.linkFree 0 ∧ (world.port 0).csLow = false ∧ (world.port 0).responses = [] ∧
      answeredOnce.settled ∧ answeredOnce.nextCount.settle.settled ∧ answeredOnce.nextCount.settle.linkFree 0 ∧
      (answeredOnce.nextCount.settle.port 0).responses ≠ [] := by decide +kernel
/-- A transaction under way, with no byte, three bytes (which fail framing) and a whole request received. -/
theorem witness_SelectRise :
    let s := State.settle (State.nextCount (after (.responseChoice 0) world))
    s.settled ∧ s.linkFree 0 ∧ (s.port 0).csLow = true ∧ (s.port 0).chosen = some (world.choose 0) ∧
      (bytesOfBits (List.replicate 7 true)).length = 0 ∧ (bytesOfBits (List.replicate 24 true)).length = 3 ∧
      parseFrame 0 (bytesOfBits (List.replicate 24 true)) = none ∧
      parseFrame 0 (bytesOfBits (List.replicate 32 false)) = some (.noneRequest 0 0) := by decide +kernel
theorem witness_RoundTrip :
    (Instr.unknownKind 0 0xFF 255 (List.replicate 28 255)).wf = true ∧
      requestFields (.unknownKind 0 0xFF 255 (List.replicate 28 255)) = some (0, 0xFF, 255, List.replicate 28 255) ∧
      requestFields (.noteAck 3 0 0xFFFF) = some (3, 0x51, 0, [0xFF, 0xFF]) := by decide
theorem witness_None : world.settled ∧ world.linkFree 0 ∧ 4 ≤ 4 := by decide
def fullPort : State := world.modPort 0 fun q => { q with deferred := List.replicate 8 ⟨0x35, 1, .line 2⟩ }
theorem witness_Gate :
    fullPort.settled ∧ fullPort.linkFree 0 ∧ 8 ≤ fullPort.pendingCount 0 ∧ world.settled ∧ world.linkFree 3 ∧
      world.pendingCount 3 < 8 ∧ world.isOpen 3 = false ∧
      requestFields (.unknownKind 3 0x7F 1 []) = some (3, 0x7F, 1, []) ∧
      requestFields (.closeSession 3 1) = some (3, 0x02, 1, []) ∧
      (fullPort.modPort 0 fun q => { q with deferred := List.replicate 7 ⟨0x35, 1, .line 2⟩ }).pendingCount 0 = 7 := by decide
theorem witness_CommandsBegin :
    State.reset.handles 0 = true ∧ State.reset.count.running = false ∧ (State.reset.port 0).lastEdge ≠ some 1 ∧
      answeredOnce.handles 0 = true ∧ (answeredOnce.port 0).lastEdge = some answeredOnce.count.serial ∧
      world.count.refinEdge = false ∧ (1, edgeTo .high) ∉ world.count.changes ∧
      (1, edgeTo .high) ∈ (world.beginCount .low 2).count.changes ∧ (answeredOnce.port 0).csLow = false ∧
      ((after (.responseChoice 0) world).port 0).csLow = true ∧
      ((after (.responseChoice 0) world).port 0).lastEdge = some (after (.responseChoice 0) world).count.serial := by decide
theorem witness_Open :
    world.canTake 0 ∧ world.settled ∧ world.isOpen 0 = true ∧ world.canTake 3 ∧ world.isOpen 3 = false ∧
      (0x100 : BitVec 16).extractLsb' 8 8 ≠ 0 ∧ (0x0FF : BitVec 16).extractLsb' 8 8 = 0 := by decide

/-- LINE1 retained; LINE0 and LINE2 not; a proposal of the port with a voter. -/
def ending : State := withProposal (proposal .voting 8) (withLine 1 { inputLine with retain := true })
theorem witness_SessionEnd : ending.endsSession 0 (.closeSession 0 4) ∧ ending.endsSession 0 (.prstAssert 0) :=
  ⟨Or.inl ⟨4, rfl, by decide⟩, Or.inr ⟨rfl, by decide, by decide, by decide⟩⟩
theorem witness_SessionEndClauses :
    ending.retainedFor 0 1 ∧ ending.freedFor 0 0 ∧ (ending.line 3).owner ≠ some 0 ∧
      ending.plan.proposal = some (proposal .voting 8) ∧ (proposal .voting 8).proposer = 0 ∧
      (proposal .voting 8).required.getLsbD 1 = true ∧
      world.freedFor 0 1 ∧ (world.line 1).mode = .input ∧ (world.subs 1).getLsbD 1 = true ∧
      (proposal .voting 8).proposer ≠ 1 ∧ (proposal .voting 8).required.getLsbD 2 = false ∧ world.plan.proposal = none := by
  decide
theorem witness_SessionEndOfVoter : ending.endsSession 1 (.closeSession 1 4) ∧ ending.endsSession 1 (.prstAssert 1) :=
  ⟨Or.inl ⟨4, rfl, by decide⟩, Or.inr ⟨rfl, by decide, by decide, by decide⟩⟩

theorem witness_NoteAck :
    queued.serving 1 ∧ (∃ x ∈ (queued.queue 1).entries, x.number = 42) ∧ (∀ x ∈ (queued.queue 1).entries, x.number ≠ 40) ∧
      (queued.queue 1).overflow = none ∧
      (State.settle (world.modQueue 0 fun q => { q with overflow := some ⟨0xFFFF, 1, 1⟩ })).serving 0 ∧
      ((State.settle (world.modQueue 0 fun q => { q with overflow := some ⟨0xFFFF, 1, 1⟩ })).queue 0).overflow =
        some ⟨0xFFFF, 1, 1⟩ := by decide
/-- A port that is closed, a kind not enabled, a re-fire, the fifteenth place, and a full queue. -/
theorem witness_Posts :
    let full := List.replicate 15 (⟨1, .inputStopped 0, 0, 0⟩ : Note)
    world.isOpen 3 = false ∧ world.isOpen 0 = true ∧ (world.queue 0).enable.getLsbD (NoteBody.inputStopped 0).kind.bit = true ∧
      (∃ n ∈ (queued.queue 1).entries, n.body.kind = (NoteBody.syncChange .free 0 0).kind) ∧
      (full.drop 1).length < 15 ∧ 15 ≤ full.length ∧
      (NoteBody.inputStopped 0).kind ≠ .journalReady ∧ (NoteBody.inputStopped 0).kind ≠ .syncChange := by decide

theorem witness_Capacities :
    fullPort.withinCapacity ∧ (withEntries (List.replicate 128 (entry 1 0 .set 0 9))).withinCapacity := by
  unfold State.withinCapacity; decide
theorem witness_NumbersDistinct :
    let s : State := { world.setRecords [capture1, { capture1 with sequence := 6 }] with
      schedule := ⟨[entry 1 0 .set 0 9, entry 0xFFFFFFFF 0 .set 0 9], 2⟩ }
    s.withinCapacity ∧ s.numbersDistinct := by
  unfold State.withinCapacity State.numbersDistinct; decide
theorem witness_FrameInRange : atEnd.frameInRange ∧ boundary.frameInRange := by
  refine ⟨⟨by decide, by decide, by decide, by decide, ?_⟩, ⟨by decide, by decide, by decide, by decide, ?_⟩⟩ <;>
    · intro x h
      exact absurd h (by simp [show atEnd.plan.proposal = none from rfl, show boundary.plan.proposal = none from rfl])
theorem witness_OwnersAgree : (withEntries [entry 1 0 .set 0 9, { entry 2 3 .set 0 9 with owner := none, notify := false }]).ownersAgree := by
  unfold State.ownersAgree; decide
theorem witness_StepAnswers : ∃ t, step { world with pending := [.cclkCount .high 2] } = .next t := ⟨_, rfl⟩

end Sys2Proof.Tests
end

section
/-! PROOFS. The time base: rules shared by the statements of chapter 1. What a resolution and the operations at the head of
the list keep, and what a frame boundary event keeps, stated for any property its small operations keep. -/

namespace Sys2Proof.Machine
namespace State

/-! ### Resolutions -/

section
variable {P : State → Prop}

/-- What posts of ACTION_RESULT, line changes and list changes keep, a resolution as due or as jumped keeps. -/
theorem resolveOne_keeps (hq : ∀ s p n t l o tc e, P s → P (s.post p (.actionResult n t l o tc e)))
    (hl : ∀ s k f, P s → P (s.modLine k f)) (he : ∀ s es, P s → P (s.setEntries es)) (s : State) (x : Entry) (hs : P s) :
    P (s.resolveOne x) := by
  have hlead : P (s.lead x.line x.kind) := hl _ _ _ hs
  have htrail : P (s.trail x.line x.kind) := by
    unfold trail
    split
    · exact hs
    · exact hl _ _ _ hs
  have hresolve : ∀ u out, P u → P (u.resolve x out) := fun u out hu => by
    unfold resolve report
    repeat' split
    · exact he _ _ hu
    · exact hq _ _ _ _ _ _ _ _ (he _ _ hu)
    · exact he _ _ hu
  have hdue : P (s.resolveDue x) := by
    unfold resolveDue
    repeat' split
    · exact hresolve _ _ htrail
    · exact hresolve _ _ hs
    · exact he _ _ hlead
    · exact hresolve _ _ hlead
  have hjumped : ∀ held, P (s.resolveJumped held x) := fun held => by
    unfold resolveJumped
    repeat' split
    · exact hresolve _ _ htrail
    · exact hresolve _ _ hs
    · exact hresolve _ _ hs
    · exact he _ _ hlead
    · exact hresolve _ _ hlead
  unfold resolveOne
  repeat' split
  · exact hdue
  · exact hjumped _
  all_goals exact hdue

/-- What a resolution keeps, resolutions one after another at the head of the list keep. -/
theorem resolveHeads_keeps (h : ∀ s x, P s → P (s.resolveOne x)) (go : State → Bool) (n : Nat) (s : State) (hs : P s) :
    P (resolveHeads go n s) := by
  induction n generalizing s with
  | zero => exact hs
  | succ n ih =>
    unfold resolveHeads
    repeat' split
    · exact hs
    · exact ih _ (h _ _ hs)
    · exact hs

theorem resolveToPulse_keeps (h : ∀ s x, P s → P (s.resolveOne x)) (n : Nat) (s : State) (hs : P s) :
    P (resolveToPulse n s) := by
  induction n generalizing s with
  | zero => exact hs
  | succ n ih =>
    unfold resolveToPulse
    repeat' split
    · exact hs
    · exact h _ _ hs
    · exact ih _ (h _ _ hs)
    · exact hs

end

section
variable {α : Type} (g : State → α) (hq : ∀ (s : State) p f, g (s.modQueue p f) = g s)
  (hl : ∀ (s : State) k f, g (s.modLine k f) = g s) (he : ∀ (s : State) es, g (s.setEntries es) = g s)
include hq hl he

/-- A value that neither queues, lines nor the list hold is the same after a resolution as due or as jumped. -/
theorem resolveOne_same (s : State) (x : Entry) : g (s.resolveOne x) = g s :=
  resolveOne_keeps (P := fun t => g t = g s) (fun _ _ _ _ _ _ _ _ h => (post_same g hq _ _ _).trans h)
    (fun _ _ _ h => (hl _ _ _).trans h) (fun _ _ h => (he _ _).trans h) s x rfl

theorem resolveHeads_same (go : State → Bool) (n : Nat) (s : State) : g (resolveHeads go n s) = g s :=
  resolveHeads_keeps (P := fun t => g t = g s) (fun t x h => (resolveOne_same g hq hl he t x).trans h) go n s rfl

theorem resolveToPulse_same (n : Nat) (s : State) : g (resolveToPulse n s) = g s :=
  resolveToPulse_keeps (P := fun t => g t = g s) (fun t x h => (resolveOne_same g hq hl he t x).trans h) n s rfl

end

/-! ### Frame boundary events -/

section
variable {P : State → Prop}

theorem changeSync_keeps (hn : ∀ s, P s → P s.noteSync) (hs : ∀ s f, P s → P (s.modSync f)) (s : State)
    (f : SyncUnit → SyncUnit) (h : P s) : P (s.changeSync f) := by
  unfold changeSync
  split
  · exact hs _ _ h
  · exact hn _ (hs _ _ h)

theorem boundarySyncOpen_keeps (hn : ∀ s, P s → P s.noteSync) (hs : ∀ s f, P s → P (s.modSync f)) (s : State) (a : Bool)
    (h : P s) : P (s.boundarySyncOpen a) := by
  unfold boundarySyncOpen
  refine hs _ _ ?_
  split
  · exact changeSync_keeps hn hs _ _ h
  · exact h

theorem postSet_keeps (hq : ∀ s p b, P s → P (s.post p b)) (s : State) (x : PortSet) (b : NoteBody) (h : P s) :
    P (s.postSet x b) := by
  refine forPorts_keeps (fun p t ht => ?_) s h
  split
  · exact hq _ _ _ ht
  · exact ht

theorem answerProposer_keeps (ha : ∀ s p o r b, P s → P (s.answerDeferred p o r b)) (s : State) (x : Proposal) (r : Result)
    (b : Body) (h : P s) : P (s.answerProposer x r b) := by
  unfold answerProposer
  split
  · exact h
  · exact ha _ _ _ _ _ h

theorem answerStager_keeps (ha : ∀ s p o r b, P s → P (s.answerDeferred p o r b)) (s : State) (k : LineId) (r : Result)
    (b : Body) (h : P s) : P (s.answerStager k r b) := by
  unfold answerStager
  repeat' split
  · exact h
  · exact h
  · exact ha _ _ _ _ _ h

theorem announcePlan_keeps (hq : ∀ s p b, P s → P (s.post p b)) (s : State) (h : P s) : P s.announcePlan := by
  unfold announcePlan
  exact forPorts_keeps (fun p t ht => hq t p _ ht) s h

theorem boundaryPlan_keeps (hq : ∀ s p b, P s → P (s.post p b)) (ha : ∀ s p o r b, P s → P (s.answerDeferred p o r b))
    (hp : ∀ (s : State) u, P s → P { s with plan := u }) (s : State) (h : P s) : P s.boundaryPlan := by
  have hx : ∀ (u : State) x, P u → P (u.setProposal x) := fun u x => hp u { u.plan with proposal := x }
  have hr : ∀ r, P (s.setPlan r) := fun r => hp s ⟨r, s.plan.number + 1, s.plan.proposal, s.plan.counter⟩ h
  unfold boundaryPlan
  repeat' split
  · exact h
  · exact hx _ _ (answerProposer_keeps ha _ _ _ _ (announcePlan_keeps hq _ (hr _)))
  · exact hx _ _ (postSet_keeps hq _ _ _ (answerProposer_keeps ha _ _ _ _ h))
  · exact hx _ _ h

theorem reportForced_keeps (hq : ∀ s p b, P s → P (s.post p b)) (s : State) (k : LineId) (x : Program) (len : Phase)
    (h : P s) : P (s.reportForced k x len) := by
  unfold reportForced
  repeat' split
  · exact h
  · exact hq _ _ _ h
  · exact h

theorem boundaryLine_keeps (hq : ∀ s p b, P s → P (s.post p b)) (ha : ∀ s p o r b, P s → P (s.answerDeferred p o r b))
    (hl : ∀ s k f, P s → P (s.modLine k f)) (len : Phase) (a : Bool) (k : LineId) (s : State) (h : P s) :
    P (s.boundaryLine len a k) := by
  unfold boundaryLine
  repeat' split
  · exact h
  · exact reportForced_keeps hq _ _ _ _ (hl _ _ _ (answerStager_keeps ha _ _ _ _ h))
  · exact h
  · exact reportForced_keeps hq _ _ _ _ (hl _ _ _ h)
  · exact h

theorem boundaryLines_keeps (hq : ∀ s p b, P s → P (s.post p b)) (ha : ∀ s p o r b, P s → P (s.answerDeferred p o r b))
    (hl : ∀ s k f, P s → P (s.modLine k f)) (len : Phase) (a : Bool) (s : State) (h : P s) :
    P (s.boundaryLines len a) := by
  unfold boundaryLines
  exact forLines_keeps (fun k t => boundaryLine_keeps hq ha hl len a k t) s h

/-- What an occasion of SYNC_CHANGE, posts, deferred answers and changes of one line, the sync unit, the plan unit and the
time base keep, a frame boundary event keeps. -/
theorem frameBoundary_keeps (hn : ∀ s, P s → P s.noteSync) (hq : ∀ s p b, P s → P (s.post p b))
    (ha : ∀ s p o r b, P s → P (s.answerDeferred p o r b)) (hl : ∀ s k f, P s → P (s.modLine k f))
    (hs : ∀ s f, P s → P (s.modSync f)) (ht : ∀ s f, P s → P (s.modTime f))
    (hp : ∀ (s : State) u, P s → P { s with plan := u }) (s : State) (h : P s) : P s.frameBoundary := by
  have hclose : P s.boundarySyncClose := changeSync_keeps hn hs _ _ h
  have hunits : P s.boundaryPlanAndSync := boundarySyncOpen_keeps hn hs _ _ (boundaryPlan_keeps hq ha hp _ hclose)
  have htable : P (s.boundaryPlanAndSync.boundaryTable s.planApplies) := boundaryLines_keeps hq ha hl _ _ _ hunits
  unfold frameBoundary boundaryTime
  exact ht _ _ htable

end
end State
end Sys2Proof.Machine
end

section
/-! PROOFS. The frame invariant (R6): which operations touch the time base, the plan record, the proposed plan and the
waiting frame event, and that each that does keeps the frame in range. -/

namespace Sys2Proof.Machine

/-- The values `State.frameInRange` speaks of. -/
structure FrameValues where
  time : TimeBase
  record : Plan
  proposed : Option Plan
  raised : Bool

namespace State

/-- The frame values of a state. -/
def frameValues (s : State) : FrameValues := ⟨s.time, s.plan.record, s.plan.proposal.map (·.plan), s.count.raised⟩

variable (s : State)

theorem frameInRange_of_frameValues {a b : State} (h : a.frameValues = b.frameValues) (hb : b.frameInRange) :
    a.frameInRange := by
  obtain ⟨ht, hr, hp, hc⟩ := FrameValues.mk.inj h
  obtain ⟨hlen, hrec, hphase, hraised, hprop⟩ := hb
  unfold frameInRange
  rw [ht, hr, hc]
  refine ⟨hlen, hrec, hphase, hraised, fun x hx => ?_⟩
  rw [hx, Option.map_some, eq_comm, Option.map_eq_some_iff] at hp
  obtain ⟨y, hy, e⟩ := hp
  rw [← e]
  exact hprop y hy

/-! ### The small operations -/

@[simp] theorem frameValues_modPort (p f) : (s.modPort p f).frameValues = s.frameValues := rfl
@[simp] theorem frameValues_modLine (k f) : (s.modLine k f).frameValues = s.frameValues := rfl
@[simp] theorem frameValues_modQueue (p f) : (s.modQueue p f).frameValues = s.frameValues := rfl
@[simp] theorem frameValues_setSubs (p x) : (s.setSubs p x).frameValues = s.frameValues := rfl
@[simp] theorem frameValues_setMissed (p n) : (s.setMissed p n).frameValues = s.frameValues := rfl
@[simp] theorem frameValues_setRecords (rs) : (s.setRecords rs).frameValues = s.frameValues := rfl
@[simp] theorem frameValues_setEntries (es) : (s.setEntries es).frameValues = s.frameValues := rfl
@[simp] theorem frameValues_modSync (f) : (s.modSync f).frameValues = s.frameValues := rfl
@[simp] theorem frameValues_respond (p k i r b) : (s.respond p k i r b).frameValues = s.frameValues := rfl
@[simp] theorem frameValues_hold (p k i o) : (s.hold p k i o).frameValues = s.frameValues := rfl
@[simp] theorem frameValues_bumpActions : s.bumpActions.frameValues = s.frameValues := rfl
@[simp] theorem frameValues_bumpProposals : s.bumpProposals.frameValues = s.frameValues := rfl
@[simp] theorem frameValues_markReady (p) : (s.markReady p).frameValues = s.frameValues := rfl
@[simp] theorem frameValues_useCount (p) : (s.useCount p).frameValues = s.frameValues := rfl
@[simp] theorem frameValues_dropChange (k) : (s.dropChange k).frameValues = s.frameValues := rfl
@[simp] theorem frameValues_append (k e r) : (s.append k e r).frameValues = s.frameValues := rfl
@[simp] theorem frameValues_settle : s.settle.frameValues = s.frameValues := rfl
@[simp] theorem frameValues_post (p b) : (s.post p b).frameValues = s.frameValues :=
  post_same frameValues (fun _ _ _ => rfl) s p b
@[simp] theorem frameValues_answerDeferred (p o r b) : (s.answerDeferred p o r b).frameValues = s.frameValues :=
  answerDeferred_same s frameValues (fun _ _ _ => rfl) p o r b
@[simp] theorem frameValues_answerStager (k r b) : (s.answerStager k r b).frameValues = s.frameValues :=
  answerStager_same s frameValues (fun _ _ _ => rfl) k r b
@[simp] theorem frameValues_postSet (x b) : (s.postSet x b).frameValues = s.frameValues :=
  postSet_same s frameValues (fun _ _ _ => rfl) x b
@[simp] theorem frameValues_answerProposer (x r b) : (s.answerProposer x r b).frameValues = s.frameValues :=
  answerProposer_same s frameValues (fun _ _ _ => rfl) x r b
@[simp] theorem frameValues_noteSync : s.noteSync.frameValues = s.frameValues :=
  noteSync_same s frameValues (fun _ _ _ => rfl) fun _ => rfl

/-! ### The schedule -/

@[simp] theorem frameValues_lead (k kd) : (s.lead k kd).frameValues = s.frameValues := rfl
@[simp] theorem frameValues_trail (k kd) : (s.trail k kd).frameValues = s.frameValues := by unfold trail; split <;> rfl
@[simp] theorem frameValues_resolve (x out) : (s.resolve x out).frameValues = s.frameValues :=
  resolve_same frameValues (fun _ _ _ => rfl) (fun _ _ => rfl) s x out
theorem frameValues_resolveHeads (go n) : (resolveHeads go n s).frameValues = s.frameValues :=
  resolveHeads_same frameValues (fun _ _ _ => rfl) (fun _ _ _ => rfl) (fun _ _ => rfl) go n s
@[simp] theorem frameValues_resolveAll : s.resolveAll.frameValues = s.frameValues := frameValues_resolveHeads s _ _
@[simp] theorem frameValues_resolvePending : s.resolvePending.frameValues = s.frameValues := frameValues_resolveHeads s _ _
@[simp] theorem frameValues_resolveToPulse (n) : (resolveToPulse n s).frameValues = s.frameValues :=
  resolveToPulse_same frameValues (fun _ _ _ => rfl) (fun _ _ _ => rfl) (fun _ _ => rfl) n s
@[simp] theorem frameValues_actionPost (p i l k w d lp sc nt tag) :
    (s.actionPost p i l k w d lp sc nt tag).frameValues = s.frameValues := by
  unfold actionPost postChecked postFuture postLateAction postLatePulse answerPost
  repeat' split
  all_goals simp
@[simp] theorem frameValues_cancelOne (x) : (s.cancelOne x).frameValues = s.frameValues := by
  unfold cancelOne; split <;> simp
@[simp] theorem frameValues_cancelAll (p i sel) : (s.cancelAll p i sel).frameValues = s.frameValues := by
  have hfold : ∀ (l : List Entry) (u : State), (l.foldl cancelOne u).frameValues = u.frameValues := fun l => by
    induction l with
    | nil => exact fun _ => rfl
    | cons x xs ih => exact fun u => (ih _).trans (frameValues_cancelOne u x)
  exact hfold _ s
@[simp] theorem frameValues_actionCancel (p i sel a) : (s.actionCancel p i sel a).frameValues = s.frameValues := by
  unfold actionCancel answerCancel
  dsimp only
  repeat' split
  all_goals simp

/-! ### The line table -/

@[simp] theorem frameValues_leaveInput (k) : (s.leaveInput k).frameValues = s.frameValues := by
  unfold leaveInput stopInput
  split
  · rw [frameValues_dropChange]
    exact forPorts_same frameValues (fun p t => by split <;> simp) s
  · rfl
@[simp] theorem frameValues_discardStaged (k) : (s.discardStaged k).frameValues = s.frameValues := by simp [discardStaged]
@[simp] theorem frameValues_lineClaim (p i l) : (s.lineClaim p i l).frameValues = s.frameValues := by
  unfold lineClaim answerClaim adopt
  repeat' split
  all_goals simp
@[simp] theorem frameValues_lineRelease (p i l) : (s.lineRelease p i l).frameValues = s.frameValues := by
  unfold lineRelease answerRelease
  repeat' split
  all_goals simp
@[simp] theorem frameValues_lineConfig (p i l m sf r e v) : (s.lineConfig p i l m sf r e v).frameValues = s.frameValues := by
  unfold lineConfig applyConfig answerConfig
  repeat' split
  all_goals simp
@[simp] theorem frameValues_lineDrive (p i l v) : (s.lineDrive p i l v).frameValues = s.frameValues := by
  unfold lineDrive handLevel
  repeat' split
  all_goals simp
@[simp] theorem frameValues_cycleStage (p i l a b f) : (s.cycleStage p i l a b f).frameValues = s.frameValues := by
  unfold cycleStage acceptStage refuseStage
  repeat' split
  all_goals simp
@[simp] theorem frameValues_lineSessionEnd (p k) : (s.lineSessionEnd p k).frameValues = s.frameValues := by
  unfold lineSessionEnd retainLine orphanKeep dropLine orphanResolve
  repeat' split
  all_goals simp
@[simp] theorem frameValues_linesSessionEnd (p) : (s.linesSessionEnd p).frameValues = s.frameValues :=
  forLines_same frameValues (fun k t => frameValues_lineSessionEnd t p k) s

/-! ### The journal and the queues -/

@[simp] theorem frameValues_considerReady (b p) : (considerReady b p s).frameValues = s.frameValues := by
  unfold considerReady; split <;> simp
@[simp] theorem frameValues_capture (k e) : (s.capture k e).frameValues = s.frameValues := by
  unfold capture
  split
  · rfl
  · rw [forPorts_same frameValues fun p t => frameValues_considerReady t s p]
    exact evict_same s frameValues (fun _ _ => rfl) fun _ _ _ => rfl
@[simp] theorem frameValues_takeChangesTo (k) : (s.takeChangesTo k).frameValues = s.frameValues := by
  have hfold : ∀ (l : List (LineId × Edge)) (u : State), (l.foldl takeChange u).frameValues = u.frameValues := fun l => by
    induction l with
    | nil => exact fun _ => rfl
    | cons x xs ih => exact fun u => (ih _).trans (by simp [takeChange])
  exact hfold _ _
@[simp] theorem frameValues_journalRead (p i m) : (s.journalRead p i m).frameValues = s.frameValues := by
  unfold journalRead readItems; split <;> simp
@[simp] theorem frameValues_noteAck (p i n) : (s.noteAck p i n).frameValues = s.frameValues := by
  unfold noteAck; split <;> simp

/-! ### The sync unit -/

@[simp] theorem frameValues_handleEdge : s.handleEdge.frameValues = s.frameValues := by
  unfold handleEdge measureEdge
  repeat' split
  all_goals simp

/-! ### The plan unit: a proposal -/

theorem frameInRange_setProposal {x : Option Proposal} (h : s.frameInRange)
    (hx : ∀ y, x = some y → 1000 ≤ y.plan.frameLength.toNat) : (s.setProposal x).frameInRange := by
  obtain ⟨hlen, hrec, hphase, hraised, _⟩ := h
  exact ⟨hlen, hrec, hphase, hraised, hx⟩

theorem frameInRange_setProposal_none (h : s.frameInRange) : (s.setProposal none).frameInRange :=
  frameInRange_setProposal s h fun _ e => nomatch e

/-- A change of the standing proposal that keeps its plan. -/
theorem frameInRange_setProposal_plan {x y : Proposal} (h : s.frameInRange) (hx : s.plan.proposal = some x)
    (hy : y.plan = x.plan) : (s.setProposal (some y)).frameInRange := by
  obtain ⟨_, _, _, _, hprop⟩ := id h
  refine frameInRange_setProposal s h fun z hz => ?_
  rw [← Option.some.inj hz, hy]
  exact hprop x hx

theorem decided_plan (x : Proposal) : x.decided.plan = x.plan := by
  unfold Proposal.decided; repeat' split
  all_goals rfl

theorem planOf_frameLength {f : PlanFields} {r : Plan} (h : planOf f = some r) : 1000 ≤ r.frameLength.toNat := by
  unfold planOf at h
  repeat' split at h
  · next hr => rw [← Option.some.inj h]; exact hr.1
  all_goals cases h

theorem frameInRange_endProposal (x told r j o) (h : s.frameInRange) : (s.endProposal x told r j o).frameInRange :=
  frameInRange_setProposal_none _ (frameInRange_of_frameValues (by simp) h)

theorem frameInRange_planPropose (p i f) (h : s.frameInRange) : (s.planPropose p i f).frameInRange := by
  unfold planPropose acceptPropose refusePropose
  repeat' split
  · exact frameInRange_of_frameValues (by simp) h
  · exact frameInRange_of_frameValues (by simp) h
  · next r hr =>
    have hp : (s.setProposal (some (s.newProposal p i r))).frameInRange :=
      frameInRange_setProposal s h fun y hy => by rw [← Option.some.inj hy]; exact planOf_frameLength hr
    exact frameInRange_of_frameValues (by simp) hp

theorem frameInRange_planVote (p i n d) (h : s.frameInRange) : (s.planVote p i n d).frameInRange := by
  have hanswer : ∀ (u : State) r st, u.frameInRange → (u.answerVote p i r n st).frameInRange := fun u r st hu =>
    frameInRange_of_frameValues (frameValues_respond u _ _ _ _ _) hu
  unfold planVote
  split
  · exact hanswer _ _ _ h
  · split
    · exact hanswer _ _ _ h
    · next x hx =>
      have haccept : (s.acceptVote p i x).frameInRange :=
        frameInRange_of_frameValues (frameValues_respond _ _ _ _ _ _) (frameInRange_setProposal_plan s h hx (decided_plan _))
      have hreject : (s.rejectVote p i x).frameInRange :=
        frameInRange_of_frameValues (frameValues_respond _ _ _ _ _ _) (frameInRange_endProposal s _ _ _ _ _ h)
      repeat' split
      · exact hanswer _ _ _ h
      · exact hanswer _ _ _ h
      · exact hanswer _ _ _ h
      · exact hanswer _ _ _ h
      · exact haccept
      · exact hreject

theorem frameInRange_planWithdraw (p i) (h : s.frameInRange) : (s.planWithdraw p i).frameInRange := by
  unfold planWithdraw answerWithdraw
  repeat' split
  · exact frameInRange_of_frameValues (by simp) h
  · exact frameInRange_of_frameValues (by simp) h
  · exact frameInRange_of_frameValues (by simp) h
  · exact frameInRange_of_frameValues (frameValues_respond _ _ _ _ _ _) (frameInRange_endProposal s _ _ _ _ _ h)

theorem frameInRange_planSessionEnd (p) (h : s.frameInRange) : (s.planSessionEnd p).frameInRange := by
  unfold planSessionEnd proposerEnds
  split
  · exact h
  · next x hx =>
    repeat' split
    · exact frameInRange_setProposal_none _ (frameInRange_of_frameValues (by simp) h)
    · exact frameInRange_setProposal_plan s h hx rfl
    · exact frameInRange_setProposal_plan s h hx (decided_plan _)
    · exact h

/-! ### Sessions, resets and requests -/

theorem frameInRange_endSession (p) (h : s.frameInRange) : (s.endSession p).frameInRange := by
  unfold endSession
  refine frameInRange_planSessionEnd _ p (frameInRange_of_frameValues ?_ h)
  simp [journalSessionEnd]

theorem frameInRange_closeSession (p i) (h : s.frameInRange) : (s.closeSession p i).frameInRange :=
  frameInRange_of_frameValues (frameValues_respond _ _ _ _ _ _) (frameInRange_endSession s p h)

theorem frameInRange_prstAssert (p) (h : s.frameInRange) : (s.prstAssert p).frameInRange := by
  unfold prstAssert
  repeat' split
  · exact frameInRange_of_frameValues (by simp) h
  · exact h
  · exact frameInRange_of_frameValues (frameValues_modPort _ _ _) (frameInRange_endSession s p h)
  · exact frameInRange_of_frameValues (frameValues_modPort _ _ _) h

theorem strapFrameLength_range (st : Straps) : 1000 ≤ (strapFrameLength st).toNat := by
  obtain ⟨a, b, r⟩ := st
  cases a <;> cases b <;> simp [strapFrameLength]

theorem frameInRange_resetAssert (st : Straps) : (s.resetAssert st).frameInRange := by
  have hlen := strapFrameLength_range st
  exact ⟨hlen, rfl, Nat.lt_of_lt_of_le (show (0 : Phase).toNat < 1000 by decide) hlen, nofun, nofun⟩

/-- A request is refused at the gate or handled by its block. -/
theorem frameInRange_take (p k i n) {op : State → State} (hop : ∀ s, s.frameInRange → (op s).frameInRange)
    (h : s.frameInRange) : (s.take p k i n op).frameInRange := by
  unfold take
  repeat' split
  · exact h
  · exact frameInRange_of_frameValues (frameValues_modPort _ _ _) h
  · exact frameInRange_of_frameValues (frameValues_respond _ _ _ _ _ _) h
  · exact hop s h

theorem frameInRange_serve (i : Instr) (h : s.frameInRange) : (s.serve i).frameInRange := by
  have same : ∀ {op : State → State}, (∀ u, (op u).frameValues = u.frameValues) → ∀ p k i n,
      (s.take p k i n op).frameInRange := fun hop p k i n =>
    frameInRange_take s p k i n (fun u => frameInRange_of_frameValues (hop u)) h
  cases i with
  | unknownKind p k id b => exact same (op := State.unknownKind p k id) (fun _ => rfl) _ _ _ _
  | openSession p id e x =>
    exact same (fun u => by unfold openSession acceptOpen; repeat' split
                            all_goals simp) _ _ _ _
  | closeSession p id => exact frameInRange_take s _ _ _ _ (fun u => frameInRange_closeSession u p id) h
  | statusRead p id => exact same (op := State.statusRead p id) (fun _ => rfl) _ _ _ _
  | timeRead p id => exact same (op := State.timeRead p id) (fun _ => rfl) _ _ _ _
  | actionPost p id l k w d lp sc nt tag => exact same (fun u => frameValues_actionPost u ..) _ _ _ _
  | actionCancel p id sel a => exact same (fun u => frameValues_actionCancel u ..) _ _ _ _
  | actionQuery p id n => exact same (fun u => by unfold actionQuery; split <;> rfl) _ _ _ _
  | lineClaim p id l => exact same (fun u => frameValues_lineClaim u ..) _ _ _ _
  | lineRelease p id l => exact same (fun u => frameValues_lineRelease u ..) _ _ _ _
  | lineConfig p id l m sf r e v => exact same (fun u => frameValues_lineConfig u ..) _ _ _ _
  | lineDrive p id l v => exact same (fun u => frameValues_lineDrive u ..) _ _ _ _
  | lineQuery p id l => exact same (fun u => by unfold lineQuery; split <;> rfl) _ _ _ _
  | cycleStage p id l a b f => exact same (fun u => frameValues_cycleStage u ..) _ _ _ _
  | subscribe p id x => exact same (op := State.subscribeTo p id x) (fun _ => rfl) _ _ _ _
  | journalRead p id m => exact same (fun u => frameValues_journalRead u ..) _ _ _ _
  | noteRead p id => exact same (op := State.noteRead p id) (fun _ => rfl) _ _ _ _
  | noteAck p id n => exact same (fun u => frameValues_noteAck u ..) _ _ _ _
  | planPropose p id f => exact frameInRange_take s _ _ _ _ (fun u => frameInRange_planPropose u p id f) h
  | planVote p id n d => exact frameInRange_take s _ _ _ _ (fun u => frameInRange_planVote u p id n d) h
  | planWithdraw p id => exact frameInRange_take s _ _ _ _ (fun u => frameInRange_planWithdraw u p id) h
  | planRead p id => exact same (op := State.planRead p id) (fun _ => rfl) _ _ _ _
  | noneRequest | resetNAssert | resetNRelease | prstAssert | prstRelease | cclkCount | frameBoundaryEvent
  | holdoverLimitExpiry | voteWindowExpiry | refinEdge | backwardStep | forwardStep | actionDue | pulseTrailingEdge
  | lineLevelChange | responseChoice | transactionEnd => exact h

/-! ### The frame event of a count -/

/-- The plan unit at a frame boundary event: an applied plan was proposed, and a proposal that stands keeps its plan. -/
theorem frameInRange_boundaryPlan (h : s.frameInRange) : 1000 ≤ s.boundaryPlan.plan.record.frameLength.toNat ∧
    ∀ x, s.boundaryPlan.plan.proposal = some x → 1000 ≤ x.plan.frameLength.toNat := by
  obtain ⟨hlen, hrec, _, _, hprop⟩ := h
  rw [hrec] at hlen
  rw [boundaryPlan_plan]
  cases hp : s.plan.proposal with
  | none => exact ⟨hlen, fun x hx => absurd (hp.symm.trans hx) nofun⟩
  | some x =>
    cases ha : x.state with
    | agreed => simpa [ha] using hprop x hp
    | voting =>
      simp only [ha]
      split
      · exact ⟨hlen, nofun⟩
      · exact ⟨hlen, fun y hy => by rw [← Option.some.inj hy]; exact hprop x hp⟩

/-- L changes at a frame boundary event only, where the phase is at most 1. -/
theorem frameInRange_frameBoundary (h : s.frameInRange) (hphase : s.time.phase.toNat ≤ 1) :
    s.frameBoundary.frameInRange := by
  obtain ⟨hrec, hprop⟩ := frameInRange_boundaryPlan s h
  unfold frameInRange
  rw [frameBoundary_time, frameBoundary_plan]
  exact ⟨hrec, rfl, Nat.lt_of_le_of_lt hphase (Nat.lt_of_lt_of_le (by decide) hrec), fun _ => hphase, hprop⟩

theorem frameInRange_frameRestart (h : s.frameInRange) : s.frameRestart.frameInRange :=
  frameInRange_of_frameValues (frameValues_noteSync _) h

theorem frameInRange_takeFrameEvent (h : s.frameInRange) : s.takeFrameEvent.frameInRange := by
  unfold takeFrameEvent
  split
  · next hr =>
    obtain ⟨hlen, hrec, hphase, hraised, hprop⟩ := h
    have hp := hraised hr
    have hu : (s.modCount fun c => { c with raised := false }).frameInRange := ⟨hlen, hrec, hphase, nofun, hprop⟩
    unfold frameEvent
    split
    · exact frameInRange_frameRestart _ hu
    · exact frameInRange_of_frameValues (frameValues_noteSync _) (frameInRange_frameBoundary _ hu hp)
    · exact frameInRange_frameBoundary _ hu hp
    · exact frameInRange_frameBoundary _ hu hp
    · exact frameInRange_frameBoundary _ hu hp
  · exact h

theorem frameInRange_takeRefin (h : s.frameInRange) : s.takeRefin.frameInRange := by
  unfold takeRefin
  split
  · exact frameInRange_of_frameValues (frameValues_handleEdge _) (frameInRange_takeFrameEvent s h)
  · exact h

/-! ### A new count -/

theorem frameInRange_endCount (h : s.frameInRange) : s.endCount.frameInRange := by
  have hresolved : s.takeFrameEvent.resolveAll.frameInRange :=
    frameInRange_of_frameValues (frameValues_resolveAll _) (frameInRange_takeFrameEvent s h)
  exact frameInRange_of_frameValues (by simp [endCount]) (frameInRange_takeRefin _ hresolved)

/-- An advance by at most 2 keeps the phase below L, and reaches L with a phase of at most 1 (R2). -/
theorem frameInRange_advanceCount (a : Nat) (m : Move) (ha : a ≤ 2) (h : s.frameInRange) :
    (s.advanceCount a m).frameInRange := by
  obtain ⟨hlen, hrec, hphase, _, hprop⟩ := h
  have hl : s.time.len.toNat < 2 ^ 24 := s.time.len.isLt
  unfold advanceCount TimeBase.advance
  dsimp only
  split
  · next hge =>
    have e : (BitVec.ofNat 24 (s.time.phase.toNat + a - s.time.len.toNat)).toNat =
        s.time.phase.toNat + a - s.time.len.toNat := by rw [BitVec.toNat_ofNat]; omega
    refine ⟨hlen, hrec, ?_, fun _ => ?_, hprop⟩
    · dsimp only; omega
    · dsimp only; omega
  · next hlt =>
    have e : (BitVec.ofNat 24 (s.time.phase.toNat + a)).toNat = s.time.phase.toNat + a := by
      rw [BitVec.toNat_ofNat]; omega
    refine ⟨hlen, hrec, ?_, nofun, hprop⟩
    dsimp only
    omega

theorem frameInRange_moveCount (h : s.frameInRange) : s.moveCount.frameInRange := by
  obtain ⟨hlen, hrec, hphase, hraised, hprop⟩ := id h
  have hrun : ∀ f : TimeBase → TimeBase, (f s.time).len = s.time.len → (f s.time).phase = s.time.phase →
      (s.modTime f).frameInRange := fun f hl hp =>
    ⟨by rw [modTime_time, hl]; exact hlen, hl.trans hrec, by rw [modTime_time, hl, hp]; exact hphase,
      fun hr => by rw [modTime_time, hp]; exact hraised hr, hprop⟩
  have hzero : (0 : Phase).toNat ≤ 1 := by decide
  have horigin : (0 : Phase).toNat < s.time.len.toNat := Nat.lt_of_lt_of_le (by decide) hlen
  unfold moveCount correctCount
  split
  · split
    · exact ⟨hlen, hrec, horigin, fun _ => hzero, hprop⟩
    · exact ⟨hlen, hrec, horigin, fun _ => hzero, hprop⟩
  · split
    · exact frameInRange_advanceCount _ _ _ (by decide) h
    · dsimp only
      repeat' split
      · exact frameInRange_advanceCount _ _ _ (by decide) (hrun _ (by rfl) (by rfl))
      · refine frameInRange_advanceCount _ _ _ (by decide) (frameInRange_of_frameValues (frameValues_modSync _ _) ?_)
        exact hrun _ (by rfl) (by rfl)
      · refine frameInRange_advanceCount _ _ _ (by decide) (frameInRange_of_frameValues (frameValues_modSync _ _) ?_)
        exact hrun _ (by rfl) (by rfl)

theorem frameInRange_beginCount (v x) (h : s.frameInRange) : (s.beginCount v x).frameInRange := by
  cases hr : s.resetLow with
  | true =>
    rw [beginCount_held v x hr]
    exact h
  | false =>
    have hv : (s.beginCount v x).frameValues = s.endCount.moveCount.frameValues := by
      simp only [frameValues, beginCount_time v x hr, beginCount_plan v x hr, beginCount_count v x hr, moveCount_plan]
    exact frameInRange_of_frameValues hv (frameInRange_moveCount _ (frameInRange_endCount s h))

theorem frameInRange_takeOrNext (waits : State → Bool) {take : State → State}
    (ht : ∀ u, u.frameInRange → (take u).frameInRange) (h : s.frameInRange) : (s.takeOrNext waits take).frameInRange := by
  unfold takeOrNext
  repeat' split
  · exact ht _ h
  · exact ht _ (frameInRange_beginCount s _ _ h)
  · exact h

theorem frameInRange_linkCount (p) (h : s.frameInRange) : (s.linkCount p).frameInRange := by
  unfold linkCount
  repeat' split
  · exact frameInRange_of_frameValues (frameValues_useCount _ _) h
  · exact frameInRange_of_frameValues (frameValues_useCount _ _) (frameInRange_beginCount s _ _ h)
  · exact h

theorem frameInRange_takeChangesTo (k) (h : s.frameInRange) : (s.takeChangesTo k).frameInRange :=
  frameInRange_of_frameValues (frameValues_takeChangesTo s k) h

/-! ### The edges of CS_n -/

theorem frameInRange_selectFalls (p) (h : s.frameInRange) : (s.selectFalls p).frameInRange := by
  unfold selectFalls
  repeat' split
  · exact h
  · exact frameInRange_of_frameValues (frameValues_modPort _ _ _) (frameInRange_linkCount s p h)
  · exact h

theorem frameInRange_selectRises (p mosi) (h : s.frameInRange) : (s.selectRises p mosi).frameInRange := by
  have hport : ∀ f, ((s.linkCount p).modPort p f).frameInRange := fun f =>
    frameInRange_of_frameValues (frameValues_modPort _ _ _) (frameInRange_linkCount s p h)
  unfold selectRises receive
  repeat' split
  · exact h
  · exact hport _
  · exact hport _
  · exact frameInRange_of_frameValues (frameValues_modPort _ _ _) (hport (Port.finish _ mosi))
  · exact frameInRange_serve _ _ (hport _)

end State

/-! ### Every command -/

/-- Every command answers the settled state of an operation that keeps the frame in range. -/
theorem exec_keeps_frameInRange (c : Instr) (s t : State) (h : s.frameInRange) (e : exec c s = .next t) :
    t.frameInRange := by
  have settled : ∀ u : State, u.frameInRange → answer u = .next t → t.frameInRange := fun u hu ht => by
    rw [← Host.Outcome.next.inj ht]; exact hu
  have event : ∀ waits, answer (s.takeOrNext waits State.takeFrameEvent) = .next t → t.frameInRange := fun waits =>
    settled _ (State.frameInRange_takeOrNext s _ State.frameInRange_takeFrameEvent h)
  have request : ∀ p i, answer ((s.linkCount p).serve i) = .next t → t.frameInRange := fun p i =>
    settled _ (State.frameInRange_serve _ i (State.frameInRange_linkCount s p h))
  cases c with
  | resetNAssert st => exact settled _ (State.frameInRange_resetAssert s st) e
  | resetNRelease => exact settled s.resetRelease h e
  | prstAssert p => exact settled _ (State.frameInRange_prstAssert s p h) e
  | prstRelease p => exact settled (s.prstRelease p) (by rw [State.prstRelease_eq]; exact h) e
  | cclkCount v x => exact settled _ (State.frameInRange_beginCount s v x h) e
  | frameBoundaryEvent => exact event _ e
  | holdoverLimitExpiry => exact event _ e
  | voteWindowExpiry => exact event _ e
  | backwardStep => exact event _ e
  | forwardStep =>
    refine settled _ (State.frameInRange_takeOrNext s _ (fun u hu => ?_) h) e
    exact State.frameInRange_of_frameValues (State.frameValues_resolveAll _) (State.frameInRange_takeFrameEvent u hu)
  | actionDue =>
    exact settled _ (State.frameInRange_takeOrNext s _
      (fun u => State.frameInRange_of_frameValues (State.frameValues_resolvePending u)) h) e
  | pulseTrailingEdge =>
    exact settled _ (State.frameInRange_takeOrNext s _
      (fun u => State.frameInRange_of_frameValues (State.frameValues_resolveToPulse u _)) h) e
  | refinEdge =>
    refine settled _ ?_ e
    split
    · exact State.frameInRange_takeRefin s h
    · exact State.frameInRange_takeRefin _ (State.frameInRange_beginCount s _ _ h)
  | lineLevelChange k v =>
    refine settled _ ?_ e
    have hb := State.frameInRange_beginCount s s.refinIn (setLine s.lineIn k v) h
    unfold State.takeChangeIf
    repeat' split
    · exact State.frameInRange_takeChangesTo s k h
    · exact State.frameInRange_takeChangesTo _ k hb
    · exact hb
  | responseChoice p => exact settled _ (State.frameInRange_selectFalls s p h) e
  | transactionEnd p mosi => exact settled _ (State.frameInRange_selectRises s p mosi h) e
  | noneRequest p id => exact request p (.noneRequest p id) e
  | unknownKind p k id b => exact request p (.unknownKind p k id b) e
  | openSession p id en x => exact request p (.openSession p id en x) e
  | closeSession p id => exact request p (.closeSession p id) e
  | statusRead p id => exact request p (.statusRead p id) e
  | timeRead p id => exact request p (.timeRead p id) e
  | actionPost p id l k w d lp sc nt tag => exact request p (.actionPost p id l k w d lp sc nt tag) e
  | actionCancel p id sel a => exact request p (.actionCancel p id sel a) e
  | actionQuery p id n => exact request p (.actionQuery p id n) e
  | lineClaim p id l => exact request p (.lineClaim p id l) e
  | lineRelease p id l => exact request p (.lineRelease p id l) e
  | lineConfig p id l m sf r eg v => exact request p (.lineConfig p id l m sf r eg v) e
  | lineDrive p id l v => exact request p (.lineDrive p id l v) e
  | lineQuery p id l => exact request p (.lineQuery p id l) e
  | cycleStage p id l a b f => exact request p (.cycleStage p id l a b f) e
  | subscribe p id x => exact request p (.subscribe p id x) e
  | journalRead p id m => exact request p (.journalRead p id m) e
  | noteRead p id => exact request p (.noteRead p id) e
  | noteAck p id n => exact request p (.noteAck p id n) e
  | planPropose p id f => exact request p (.planPropose p id f) e
  | planVote p id n d => exact request p (.planVote p id n d) e
  | planWithdraw p id => exact request p (.planWithdraw p id) e
  | planRead p id => exact request p (.planRead p id) e

/-- Settles O59: by cases on the command, each operation either keeps the frame values or is one of the few that change them:
the move of a count, a frame boundary event, and the standing proposal. -/
theorem stepKeepsTheFrameInRange : Obligations.StepKeepsTheFrameInRange := by
  intro s t h e
  unfold step at e
  split at e
  · rw [← Host.Outcome.next.inj e]; exact h
  · next c rest _ => exact exec_keeps_frameInRange c { s with pending := rest } t h e

end Sys2Proof.Machine
end

section
/-! PROOFS. Settling (log 9): every command answers a settled state, and what settling changes. -/

namespace Sys2Proof.Machine

/-! ### Every command -/

/-- Every command answers the settled state of some operation. -/
theorem exec_eq_answer (c : Instr) (s : State) : ∃ u, exec c s = answer u := by
  cases c <;> exact ⟨_, rfl⟩

/-- Settles O3: settling is done once. -/
theorem everyCommandAnswersSettledState : Obligations.EveryCommandAnswersSettledState := by
  intro c s
  obtain ⟨u, h⟩ := exec_eq_answer c s
  exact ⟨u.settle, h, u.settle_settled⟩

/-! ### What settling changes -/

/-- The program level by the order of the phases of rise and fall (R61). -/
theorem programLevel_eq (g : Program) (ph : Phase) : programLevel g ph =
    if g.force = .high then .high
    else if g.force = .low then .low
    else if g.rise.toNat < g.fall.toNat then
      (if g.rise.toNat ≤ ph.toNat ∧ ph.toNat < g.fall.toNat then .high else .low)
    else if g.fall.toNat < g.rise.toNat then
      (if g.rise.toNat ≤ ph.toNat ∨ ph.toNat < g.fall.toNat then .high else .low)
    else .low := by
  unfold programLevel
  cases g.force <;> rfl

theorem atPhase_idle (ph : Phase) {l : Line} (h : l.mode ≠ .outputCycle ∨ l.active = none) : l.atPhase ph = l := by
  unfold Line.atPhase
  split
  · next hm ha =>
    rcases h with h | h
    · exact absurd hm h
    · exact absurd (h.symm.trans ha) nofun
  · rfl

theorem atPhase_cycle (ph : Phase) {l : Line} {g : Program} (hm : l.mode = .outputCycle) (ha : l.active = some g) :
    l.atPhase ph = l.drivenAt (some (programLevel g ph)) := by
  simp only [Line.atPhase, hm, ha, Line.drivenAt]

@[simp] theorem atPhase_mode (ph : Phase) (l : Line) : (l.atPhase ph).mode = l.mode := by
  unfold Line.atPhase; split <;> rfl
@[simp] theorem atPhase_safe (ph : Phase) (l : Line) : (l.atPhase ph).safe = l.safe := by
  unfold Line.atPhase; split <;> rfl
@[simp] theorem atPhase_staged (ph : Phase) (l : Line) : (l.atPhase ph).staged = l.staged := by
  unfold Line.atPhase; split <;> rfl
@[simp] theorem atPhase_active (ph : Phase) (l : Line) : (l.atPhase ph).active = l.active := by
  unfold Line.atPhase; split <;> rfl

theorem Record.refresh_eq (s : State) (r : Record) :
    r.refresh s = { r with quality := if r.stamp = s.count.serial then s.sync.state else r.quality } := by
  unfold Record.refresh
  split <;> rfl

theorem JournalItem.refresh_eq (s : State) (i : JournalItem) : i.refresh s = match i with
    | .gap n => .gap n
    | .capture r => .capture { r with quality := if r.stamp = s.count.serial then s.sync.state else r.quality } := by
  cases i with
  | gap n => rfl
  | capture r => exact congrArg JournalItem.capture (Record.refresh_eq s r)

namespace State
variable (s : State)

theorem settle_port_eq (p : PortId) : s.settle.port p = refreshPort s p (s.port p) := settle_ports_get s p

theorem settle_records : s.settle.journal.records =
    s.journal.records.map fun r => { r with quality := if r.stamp = s.count.serial then s.sync.state else r.quality } := by
  rw [settle_journal]
  exact List.map_congr_left fun r _ => Record.refresh_eq s r

theorem settle_linePins (k : LineId) : s.settle.outputs.linePins[k] = (s.settle.line k).pin :=
  mapVector_get _ _ k

theorem settle_attn (p : PortId) : s.settle.outputs.attn[p] = .low ↔ (s.queue p).size ≠ 0 := by
  have hq : (s.settle.queue p).size = (s.queue p).size := by simp [settle_queue, NoteQueue.size]
  have ha : s.settle.outputs.attn[p] = (s.settle.queue p).attn := mapVector_get _ _ p
  rw [ha]
  unfold NoteQueue.attn
  rw [hq]
  split <;> simp_all

end State

/-- Settles O4, field by field. -/
theorem settlingChangesOnlyReportsLevelsAndPins : Obligations.SettlingChangesOnlyReportsLevelsAndPins := by
  intro s
  refine ⟨rfl, rfl, rfl, rfl, rfl, rfl, rfl, rfl, rfl, rfl, fun k h => ?_, fun k g hm ha => ?_, rfl, rfl, rfl,
    s.settle_records, fun p => ?_, fun p => ?_, fun p b => ?_, fun k => ?_, s.settle_attn⟩
  · rw [State.settle_line, atPhase_idle _ h]
  · rw [State.settle_line, atPhase_cycle _ hm ha, programLevel_eq]
  · exact settle_queue_eq s p
  · exact s.settle_port_eq p
  · cases b with
    | journal items left => exact congrArg (Body.journal · left) (List.map_congr_left fun i _ => JournalItem.refresh_eq s i)
    | note r =>
      obtain ⟨_ | n | o, queued, lost⟩ := r
      · rfl
      · rfl
      · rfl
    | _ => rfl
  · have hmode : (s.settle.line k).mode = (s.line k).mode := by rw [State.settle_line, atPhase_mode]
    have hsafe : (s.settle.line k).safe = (s.line k).safe := by rw [State.settle_line, atPhase_safe]
    rw [State.settle_linePins, Line.pin, hmode, hsafe]
    rcases (s.line k).mode with _ | _ | _ | _ <;> rcases (s.settle.line k).driven with _ | _ | _ <;> rfl

end Sys2Proof.Machine
end

section
/-! PROOFS. The reset commands and the pins (R1, R134, R151): the power-on values of every block, and commands that change a
pin alone. -/

namespace Sys2Proof.Machine

/-! ### Every block at its power-on values -/

/-- Every block holds its values after RESET_N for the straps `st`; the pins and the queue of commands are open. -/
structure State.AtPowerOn (st : Straps) (s : State) : Prop where
  straps : s.straps = st
  time : s.time = powerOnTime st
  sync : s.sync = powerOnSync st
  schedule : s.schedule = ⟨[], 1⟩
  lines : s.lines = Vector.replicate 16 powerOnLine
  journal : s.journal = powerOnJournal
  plan : s.plan = powerOnPlanUnit st
  port : ∀ p, ∃ prst cs, s.port p = powerOnPort prst cs
  notes : s.notes = Vector.replicate 4 powerOnNotes
  outputs : s.outputs = powerOnOutputs

namespace State.AtPowerOn
variable {st : Straps} {s : State} (h : s.AtPowerOn st)
include h

theorem line (k : LineId) : s.line k = powerOnLine := by
  simp only [State.line, h.lines, Fin.getElem_fin, Vector.getElem_replicate]

theorem queue (p : PortId) : s.queue p = powerOnNotes := by
  simp only [State.queue, h.notes, Fin.getElem_fin, Vector.getElem_replicate]

theorem subs (p : PortId) : s.subs p = 0 := by
  rw [State.subs, h.journal]; fin_cases p <;> rfl

theorem missed (p : PortId) : s.missed p = 0 := by
  rw [State.missed, h.journal]; fin_cases p <;> rfl

/-- Nothing at power-on shows the end of a count but the pins, which stand at it. -/
theorem settled : s.settled := by
  refine State.settled_of s (fun k => ?_) (fun r hr => ?_) (fun p n hn => ?_) (fun p r hr => ?_) ?_
  · rw [h.line]; rfl
  · rw [h.journal] at hr; cases hr
  · rw [h.queue] at hn; cases hn
  · obtain ⟨_, _, hp⟩ := h.port p
    rw [hp] at hr; cases hr
  · rw [h.outputs, h.lines, h.notes]; rfl

theorem linePins (k : LineId) : s.outputs.linePins[k] = .highz := by
  rw [h.outputs]; exact Vector.getElem_replicate _

theorem attn (p : PortId) : s.outputs.attn[p] = .high := by
  rw [h.outputs]; exact Vector.getElem_replicate _

/-- The power-on values are those of the After RESET_N columns. -/
theorem atResetValues : s.atResetValues st := by
  have hlen : strapFrameLength st = if st.planSel1 then (if st.planSel0 then 1000000 else 125000)
      else if st.planSel0 then 50000 else 100000 := by
    obtain ⟨_ | _, _ | _, _⟩ := st <;> rfl
  have hline : ∀ k, (s.line k).mode = .off ∧ (s.line k).owner = none ∧ (s.line k).retain = false ∧
      (s.line k).safe = .highz ∧ (s.line k).edge = .rise ∧ (s.line k).initial = .low ∧ (s.line k).driven = none ∧
      (s.line k).last = none ∧ (s.line k).active = none ∧ (s.line k).staged = none ∧ s.outputs.linePins[k] = .highz :=
    fun k => by
      rw [h.line, h.linePins]
      exact ⟨rfl, rfl, rfl, rfl, rfl, rfl, rfl, rfl, rfl, rfl, rfl⟩
  have hport : ∀ p, (s.port p).isOpen = false ∧ (s.port p).session = 0 ∧ (s.port p).responses = [] ∧
      (s.port p).deferred = [] ∧ (s.port p).overrun = false ∧ (s.port p).badFrame = false ∧ (s.port p).chosen = none :=
    fun p => by
      obtain ⟨_, _, hp⟩ := h.port p
      rw [hp]
      exact ⟨rfl, rfl, rfl, rfl, rfl, rfl, rfl⟩
  have hqueue : ∀ p, (s.queue p).entries = [] ∧ (s.queue p).overflow = none ∧ (s.queue p).counter = 1 ∧
      (s.queue p).enable = 0 ∧ s.outputs.attn[p] = .high := fun p => by
    rw [h.queue, h.attn]
    exact ⟨rfl, rfl, rfl, rfl, rfl⟩
  refine ⟨h.straps, ?_⟩
  rw [h.time, h.sync, h.schedule, h.journal, h.plan]
  exact ⟨rfl, rfl, rfl, rfl, rfl, rfl, hlen, rfl, rfl, rfl, rfl, rfl, rfl, rfl, rfl, rfl, rfl, rfl, rfl, hline, rfl, rfl,
    fun p => ⟨h.subs p, h.missed p⟩, rfl, rfl, rfl, rfl, hport, hqueue⟩

end State.AtPowerOn

theorem resetAssert_port (st : Straps) (s : State) (p : PortId) :
    (s.resetAssert st).port p = powerOnPort (s.port p).prstLow (s.port p).csLow :=
  mapVector_get _ _ p

theorem atPowerOn_resetAssert (st : Straps) (s : State) : (s.resetAssert st).AtPowerOn st :=
  ⟨rfl, rfl, rfl, rfl, rfl, rfl, rfl, fun p => ⟨_, _, resetAssert_port st s p⟩, rfl, rfl⟩

theorem atPowerOn_reset : State.reset.AtPowerOn ⟨false, false, false⟩ :=
  ⟨rfl, rfl, rfl, rfl, rfl, rfl, rfl, fun _ => ⟨false, false, Vector.getElem_replicate _⟩, rfl, rfl⟩

/-- Settles O6: RESET_N low leaves a state at its power-on values, which is settled. -/
theorem resetAssertGivesResetValues : Obligations.ResetAssertGivesResetValues := by
  intro st s
  have h := atPowerOn_resetAssert st s
  have hexec : exec (.resetNAssert st) s = .next (s.resetAssert st) := congrArg Host.Outcome.next h.settled
  refine ⟨s.resetAssert st, hexec, rfl, h.atResetValues, rfl, rfl, rfl, fun p => ?_⟩
  rw [resetAssert_port]
  exact ⟨rfl, rfl, State.misoUndriven_held rfl⟩

/-- Settles O5: the reset state is at its power-on values; its lists are empty, so the invariants speak of the time base
and the lines alone. -/
theorem resetStateHoldsResetValues : Obligations.ResetStateHoldsResetValues := by
  have h := atPowerOn_reset
  have hframe : State.reset.frameInRange := ⟨by decide, rfl, by decide, nofun, nofun⟩
  refine ⟨rfl, rfl, h.atResetValues, h.settled, fun p => ?_, ⟨Nat.zero_le _, Nat.zero_le _, fun p => ?_⟩,
    ⟨List.nodup_nil, by decide, nofun, List.nodup_nil, by decide, nofun⟩, hframe,
    ⟨hframe, by decide, nofun, List.Pairwise.nil, nofun⟩, nofun, fun k => ?_⟩
  · obtain ⟨_, _, hp⟩ := h.port p
    exact State.misoUndriven_ignored (by rw [hp]; rfl)
  · obtain ⟨_, _, hp⟩ := h.port p
    rw [State.pendingCount, hp, h.queue]
    exact ⟨Nat.zero_le _, Nat.zero_le _⟩
  · rw [h.line]
    exact ⟨fun _ => Or.inl rfl, nofun⟩

/-! ### Commands that change a pin alone -/

/-- A state that differs from a settled one in nothing that a report or a pin shows is settled. -/
theorem State.settled_congr {s t : State} (h : s.settled) (same : SameReports t s) (hl : t.lines = s.lines)
    (hr : t.journal.records = s.journal.records) (hn : t.notes = s.notes) (hp : t.ports = s.ports)
    (ho : t.outputs = s.outputs) : t.settled := by
  have hline : ∀ k, t.line k = s.line k := fun k => by simp only [State.line, hl]
  have hqueue : ∀ p, t.queue p = s.queue p := fun p => by simp only [State.queue, hn]
  have hport : ∀ p, t.port p = s.port p := fun p => by simp only [State.port, hp]
  refine State.settled_of t (fun k => ?_) (fun r hm => ?_) (fun p n hm => ?_) (fun p r hm => ?_) ?_
  · rw [hline, same.time]; exact State.settled_line h k
  · rw [same.record]; exact State.settled_record h r (hr ▸ hm)
  · rw [same.note]; exact State.settled_note h p n (hqueue p ▸ hm)
  · rw [same.response]; exact State.settled_response h p r (hport p ▸ hm)
  · rw [ho, hl, hn]; exact State.settled_outputs h

/-- Settles O9: each of the commands changes input pins alone, which no report shows. -/
theorem pinCommandsChangeOnlyTheirPins : Obligations.PinCommandsChangeOnlyTheirPins := by
  intro s hs
  have same : ∀ t : State, t.time = s.time → t.sync = s.sync → t.schedule = s.schedule → t.lines = s.lines →
      t.journal = s.journal → t.plan = s.plan → t.ports = s.ports → t.notes = s.notes → t.count = s.count →
      t.outputs = s.outputs → answer t = .next t := fun t ht hu hd hl hj hn hp hq hc ho => by
    have reports : SameReports t s := by
      refine ⟨ht, hu, hn, by rw [hc], by rw [hd], by rw [hj], by rw [hj], fun p => ?_, fun p => ?_⟩
      · simp only [State.isOpen, State.port, hp]
      · simp only [State.port, hp]
    exact congrArg Host.Outcome.next (State.settled_congr hs reports hl (by rw [hj]) hq hp ho)
  refine ⟨same _ rfl rfl rfl rfl rfl rfl rfl rfl rfl rfl, fun p => ?_, fun refin x hr => ?_⟩
  · have hset := State.settled_modPort hs p (fun q => { q with
      prstLow := false
      lastEdge := if q.prstLow = true ∧ s.resetLow = false then some s.count.serial else q.lastEdge })
      rfl rfl (State.settled_response hs p)
    show answer (s.prstRelease p) = _
    rw [State.prstRelease_eq]
    exact congrArg Host.Outcome.next hset
  · show answer (s.beginCount refin x) = _
    rw [State.beginCount_held refin x hr]
    exact same _ rfl rfl rfl rfl rfl rfl rfl rfl rfl rfl

end Sys2Proof.Machine
end

section
/-! PROOFS. The read requests (R16, R17, R44, R72, R132, R153, R163; log 10): each answers with a body that the end of the
count shows, and changes nothing but the link of its port. -/

namespace Sys2Proof.Machine

/-! ### Bodies as the end of the count shows them -/

/-- Every entry of a settled queue, at its head too, stands as the end of the count shows it. -/
theorem head_refresh {s : State} (h : s.settled) (p : PortId) : (s.queue p).head.refresh s = (s.queue p).head := by
  unfold NoteQueue.head
  split
  · next n ns hn =>
    have hmem : n ∈ (s.queue p).entries := by rw [hn]; exact List.mem_cons_self
    exact congrArg NoteHead.ordinary (State.settled_note h p n hmem)
  · rfl
  · rfl

theorem noteAnswer_refresh {s : State} (h : s.settled) (p : PortId) :
    (Body.note (s.queue p).answer).refresh s p = .note (s.queue p).answer := by
  show Body.note ⟨(s.queue p).head.refresh s, _, _⟩ = _
  rw [head_refresh h]
  rfl

/-- The answer of a queue by what stands at its head (R163). -/
theorem queueAnswer_ordinary {q : NoteQueue} {n : Note} {ns : List Note} (h : q.entries = n :: ns) :
    q.answer = ⟨.ordinary n, q.size, q.lost⟩ := by
  simp [NoteQueue.answer, NoteQueue.head, h]

theorem queueAnswer_overflow {q : NoteQueue} {o : OverflowEntry} (h : q.entries = []) (ho : q.overflow = some o) :
    q.answer = ⟨.overflow o, 1, o.lost⟩ := by
  simp [NoteQueue.answer, NoteQueue.head, NoteQueue.size, NoteQueue.lost, h, ho]

theorem queueAnswer_empty {q : NoteQueue} (h : q.entries = []) (ho : q.overflow = none) : q.answer = ⟨.empty, 0, 0⟩ := by
  simp [NoteQueue.answer, NoteQueue.head, NoteQueue.size, NoteQueue.lost, h, ho]

/-! ### The entry with a number -/

/-- With distinct numbers, the entry found by a number is the one that carries it. -/
theorem find_number {es : List Entry} (hd : (es.map (·.number)).Nodup) {x : Entry} (hx : x ∈ es) :
    es.find? (fun y => decide (y.number = x.number)) = some x := by
  induction es with
  | nil => cases hx
  | cons y ys ih =>
    rw [List.map_cons, List.nodup_cons] at hd
    rcases List.mem_cons.mp hx with rfl | hx
    · exact List.find?_cons_of_pos (decide_eq_true rfl)
    · have hne : y.number ≠ x.number := fun e => hd.1 (e ▸ List.mem_map_of_mem hx)
      rw [List.find?_cons_of_neg (by simpa using hne)]
      exact ih hd.2 hx

theorem find_number_none {es : List Entry} {n : BitVec 32} (h : ∀ x ∈ es, x.number ≠ n) :
    es.find? (fun y => decide (y.number = n)) = none :=
  List.find?_eq_none.mpr fun x hx => by simpa using h x hx

/-! ### The requests -/

/-- A request that answers the marked count with one body, which settling brings to `b'`. -/
theorem answer_take_respond {s : State} {p : PortId} (h : s.serving p) (k i : Byte) (op : State → State) {r : Result}
    {b b' : Body} (hop : op (s.marked p) = (s.marked p).respond p k i r b) (hb : b.refresh s p = b') :
    answer ((s.linkCount p).take p k i true op) = .next (s.answered p k i r b') := by
  rw [answer_take_open h, hop, State.marked_respond, State.settle_answered h.2.2, hb]

/-- A request that answers the marked count with one fixed body. -/
theorem answer_take_fixed {s : State} {p : PortId} (h : s.serving p) (k i : Byte) (op : State → State) {r : Result}
    {b : Body} (hop : op (s.marked p) = (s.marked p).respond p k i r b) (hb : b.fixed = true) :
    answer ((s.linkCount p).take p k i true op) = .next (s.answered p k i r b) :=
  answer_take_respond h k i op hop (Body.refresh_fixed s p hb)

/-- STATUS_READ answers on an open port and on a closed one. -/
theorem exec_statusRead {s : State} {p : PortId} (id : Byte) (h : s.canTake p) (hs : s.settled) :
    exec (.statusRead p id) s = .next (s.answered p kindStatusRead id .ok (.status (s.statusReport p))) := by
  show answer ((s.linkCount p).take p kindStatusRead id false (State.statusRead p id)) = _
  rw [answer_take_any h, State.statusRead, State.marked_respond, State.settle_answered hs]
  rfl

section
variable {s : State} {p : PortId} (id : Byte) (h : s.serving p)
include h

theorem exec_timeRead : exec (.timeRead p id) s = .next (s.answered p kindTimeRead id .ok (.time s.timeSnapshot)) :=
  answer_take_respond h kindTimeRead id (State.timeRead p id) rfl rfl

theorem exec_planRead : exec (.planRead p id) s = .next (s.answered p kindPlanRead id .ok (.planRead s.planReport)) :=
  answer_take_respond h kindPlanRead id (State.planRead p id) rfl rfl

theorem exec_noteRead : exec (.noteRead p id) s = .next (s.answered p kindNoteRead id .ok (.note (s.queue p).answer)) :=
  answer_take_respond h kindNoteRead id (State.noteRead p id) rfl (noteAnswer_refresh h.2.2 p)

theorem exec_lineQuery_high {line : Byte} (hl : 16 ≤ line.toNat) :
    exec (.lineQuery p id line) s = .next (s.answered p kindLineQuery id .badValue (.lineRecord none)) :=
  answer_take_fixed h kindLineQuery id (State.lineQuery p id line) (by simp only [State.lineQuery, lineOf_high hl]) rfl

theorem exec_lineQuery (k : LineId) : exec (.lineQuery p id (lineByte k)) s = .next (s.answered p kindLineQuery id .ok
    (.lineRecord (some ⟨k, s.line k, s.entriesOn k, s.time.t, s.time.epoch⟩))) := by
  refine answer_take_fixed h kindLineQuery id (State.lineQuery p id (lineByte k)) ?_ rfl
  simp only [State.lineQuery, lineOf_lineByte, State.marked_line, State.marked_time, State.settled_line h.2.2,
    State.marked_entriesOn]

theorem exec_actionQuery {n : BitVec 32} {x : Option Entry}
    (hx : s.schedule.entries.find? (fun y => decide (y.number = n)) = x) :
    exec (.actionQuery p id n) s = .next (s.answered p kindActionQuery id (if x.isSome then .ok else .unknown)
      (.query x s.time.t s.time.epoch)) := by
  refine answer_take_fixed h kindActionQuery id (State.actionQuery p id n) ?_ rfl
  unfold State.actionQuery
  rw [State.marked_schedule, hx]
  cases x <;> rfl

end

/-- Settles O34, request by request. -/
theorem readsAnswerAndChangeNothingElse : Obligations.ReadsAnswerAndChangeNothingElse := by
  intro s p id hc hs
  refine ⟨exec_statusRead id hc hs, fun ho => ?_⟩
  have h : s.serving p := ⟨hc, ho, hs⟩
  refine ⟨exec_timeRead id h, exec_planRead id h, fun n ns hn => ?_, fun o he hov => ?_, fun he hov => ?_,
    fun line hl => exec_lineQuery_high id h hl, exec_lineQuery id h,
    fun n hn => exec_actionQuery id h (find_number_none hn), fun hd x hx => exec_actionQuery id h (find_number hd hx)⟩
  · rw [exec_noteRead id h, queueAnswer_ordinary hn]; rfl
  · rw [exec_noteRead id h, queueAnswer_overflow he hov]; rfl
  · rw [exec_noteRead id h, queueAnswer_empty he hov]; rfl

end Sys2Proof.Machine
end

section
/-! PROOFS. Counts (chapter 1): the four moves, the first count after reset, and the count in which an event command takes
its event. -/

namespace Sys2Proof.Machine
namespace State

/-! ### The moves (R2, R7, R9 to R11) -/

variable {s : State}

/-- An advance moves the time base by its counts, and raises a frame event where the phase reaches L (R2, R4). -/
theorem advancedBy_advanceCount (a : Nat) (m : Move) (u : State) : advancedBy a u (u.advanceCount a m) := by
  unfold advancedBy advanceCount TimeBase.advance
  dsimp only
  split
  · exact ⟨rfl, rfl, rfl, rfl, rfl, rfl⟩
  · exact ⟨rfl, rfl, rfl, rfl, rfl, rfl⟩

theorem advanceCount_run (a : Nat) (m : Move) (u : State) : (u.advanceCount a m).time.run = u.time.run := by
  unfold advanceCount TimeBase.advance
  dsimp only
  split <;> rfl

theorem advanceCount_performed (a : Nat) (m : Move) (u : State) :
    (u.advanceCount a m).time.performed = u.time.performed := by
  unfold advanceCount TimeBase.advance
  dsimp only
  split <;> rfl

/-- The phase stays short of L. -/
theorem advanceCount_short (a : Nat) (m : Move) {u : State} (h : u.time.phase.toNat + a < u.time.len.toNat) :
    u.advanceCount a m =
      { u with
        time := { u.time with t := u.time.t + BitVec.ofNat 48 a, phase := BitVec.ofNat 24 (u.time.phase.toNat + a) }
        count := u.count.start m u.time.t false } := by
  unfold advanceCount TimeBase.advance
  dsimp only
  rw [if_neg (by omega)]

/-- No step is ordered, and the correction run is over or has nothing to correct: an ordinary count, which closes the run. -/
theorem moveCount_ordinary (ho : s.sync.stepOrder = none)
    (h : s.time.run = .closed ∨ s.sync.c = 0 ∨ s.plan.record.slewLimit.toNat ≤ s.time.performed) :
    s.moveCount = (s.modTime fun tb => { tb with run := .closed }).advanceCount 1 .ordinary := by
  unfold moveCount correctCount
  rw [ho]
  dsimp only
  split
  · next hr =>
    have hself : s.modTime (fun tb => { tb with run := .closed }) = s := by
      unfold modTime
      rw [← hr]
    rw [hself]
  · next hr =>
    rw [if_pos (h.resolve_left (by rw [hr]; exact nofun))]

section
variable (ho : s.sync.stepOrder = none) (hr : s.time.run = .opened) (hp : s.time.performed < s.plan.record.slewLimit.toNat)
include ho hr hp

theorem moveCount_insertion (hc : 0 < s.sync.c) :
    s.moveCount = ((s.modTime fun tb => { tb with performed := tb.performed + 1 }).modSync fun u =>
      { u with c := u.c - 1 }).advanceCount 0 .insertion := by
  unfold moveCount correctCount
  rw [ho, hr]
  dsimp only
  rw [if_neg (by omega), if_pos hc]

theorem moveCount_deletion (hc : s.sync.c < 0) :
    s.moveCount = ((s.modTime fun tb => { tb with performed := tb.performed + 1 }).modSync fun u =>
      { u with c := u.c + 1 }).advanceCount 2 .deletion := by
  unfold moveCount correctCount
  rw [ho, hr]
  dsimp only
  rw [if_neg (by omega), if_neg (by omega)]

end

/-- An ordinary count advances by 1, closes the run and leaves c and the corrections performed. -/
theorem ordinary_effect (ho : s.sync.stepOrder = none)
    (h : s.time.run = .closed ∨ s.sync.c = 0 ∨ s.plan.record.slewLimit.toNat ≤ s.time.performed) :
    advancedBy 1 s s.moveCount ∧ s.moveCount.time.run = .closed ∧ s.moveCount.time.performed = s.time.performed ∧
      s.moveCount.sync.c = s.sync.c := by
  rw [moveCount_ordinary ho h, advanceCount_run, advanceCount_performed]
  exact ⟨advancedBy_advanceCount 1 .ordinary (s.modTime fun tb => { tb with run := .closed }), rfl, rfl, rfl⟩

section
variable (ho : s.sync.stepOrder = none) (hr : s.time.run = .opened) (hp : s.time.performed < s.plan.record.slewLimit.toNat)
include ho hr hp

/-- An insertion advances by 0 and takes one from c. -/
theorem insertion_effect (hc : 0 < s.sync.c) :
    advancedBy 0 s s.moveCount ∧ s.moveCount.time.run = .opened ∧ s.moveCount.time.performed = s.time.performed + 1 ∧
      s.moveCount.sync.c = s.sync.c - 1 := by
  rw [moveCount_insertion ho hr hp hc, advanceCount_run, advanceCount_performed]
  exact ⟨advancedBy_advanceCount 0 .insertion ((s.modTime fun tb => { tb with performed := tb.performed + 1 }).modSync
    fun u => { u with c := u.c - 1 }), hr, rfl, rfl⟩

/-- A deletion advances by 2 and gives one to c. -/
theorem deletion_effect (hc : s.sync.c < 0) :
    advancedBy 2 s s.moveCount ∧ s.moveCount.time.run = .opened ∧ s.moveCount.time.performed = s.time.performed + 1 ∧
      s.moveCount.sync.c = s.sync.c + 1 := by
  rw [moveCount_deletion ho hr hp hc, advanceCount_run, advanceCount_performed]
  exact ⟨advancedBy_advanceCount 2 .deletion ((s.modTime fun tb => { tb with performed := tb.performed + 1 }).modSync
    fun u => { u with c := u.c + 1 }), hr, rfl, rfl⟩

end

theorem moveCount_backward {o : StepOrder} (ho : s.sync.stepOrder = some o) (he : 0 < o.e) :
    s.moveCount = s.backwardCount o.e := by
  unfold moveCount
  rw [ho]
  exact if_pos he

theorem moveCount_forward {o : StepOrder} (ho : s.sync.stepOrder = some o) (he : ¬0 < o.e) :
    s.moveCount = s.forwardCount o.e o.state := by
  unfold moveCount
  rw [ho]
  exact if_neg he

theorem beginCount_raised (refin : Level) (x : LineSet) (h : s.resetLow = false) :
    (s.beginCount refin x).count.raised = s.endCount.moveCount.count.raised := by
  rw [beginCount_count refin x h]

theorem beginCount_move (refin : Level) (x : LineSet) (h : s.resetLow = false) :
    (s.beginCount refin x).count.move = s.endCount.moveCount.count.move := by
  rw [beginCount_count refin x h]

theorem beginCount_c (refin : Level) (x : LineSet) (h : s.resetLow = false) :
    (s.beginCount refin x).sync.c = s.endCount.moveCount.sync.c := by
  rw [beginCount_sync refin x h]

theorem beginCount_stepOrder (refin : Level) (x : LineSet) (h : s.resetLow = false) :
    (s.beginCount refin x).sync.stepOrder = s.endCount.moveCount.sync.stepOrder := by
  rw [beginCount_sync refin x h]

/-- The move of a count is seen at its time base and its frame event. -/
theorem advancedBy_beginCount {a : Nat} {u : State} (refin : Level) (x : LineSet) (h : s.resetLow = false)
    (ha : advancedBy a u s.endCount.moveCount) : advancedBy a u (s.beginCount refin x).settle := by
  unfold advancedBy at ha ⊢
  rw [settle_time, settle_count, beginCount_time refin x h, beginCount_raised refin x h]
  exact ha

end State

/-- Settles O11: the four moves exclude each other by the step order, the run, c and the slew limit. -/
theorem countMakesOneMove : Obligations.CountMakesOneMove := by
  intro s refin x h
  refine ⟨(s.beginCount refin x).settle, rfl, State.beginCount_running refin x h, State.beginCount_serial refin x h, ?_⟩
  simp only [State.settle_time, State.settle_sync, State.settle_count, State.beginCount_time refin x h,
    State.beginCount_c refin x h, State.beginCount_raised refin x h, State.beginCount_stepOrder refin x h]
  have seen : ∀ {a u}, State.advancedBy a u s.endCount.moveCount → State.advancedBy a u (s.beginCount refin x).settle :=
    State.advancedBy_beginCount refin x h
  refine ⟨fun ho hclosed => ?_, fun ho hr hp hc => ?_, fun ho hr hp hc => ?_, fun o ho => ?_⟩
  · exact (State.ordinary_effect ho hclosed).imp_left seen
  · exact (State.insertion_effect ho hr hp hc).imp_left seen
  · exact (State.deletion_effect ho hr hp hc).imp_left seen
  · by_cases he : 0 < o.e
    · rw [State.moveCount_backward ho he, if_pos he]
      exact ⟨rfl, rfl, rfl, rfl, rfl, rfl, rfl, rfl⟩
    · rw [State.moveCount_forward ho he, if_neg he]
      exact ⟨rfl, rfl, rfl, rfl, rfl, rfl, rfl, rfl⟩

/-! ### The first count after reset (R1, R94) -/

/-- A count with nothing waiting and no entry ends with a settlement alone. -/
theorem endCount_nothing {s : State} (hr : s.count.raised = false) (he : s.count.refinEdge = false)
    (hc : s.count.changes = []) (hs : s.schedule.entries = []) : s.endCount = s.settle := by
  have hresolve : s.resolveAll = s := State.resolveHeads_quiet _ _ (by rw [hs]; exact nofun)
  unfold State.endCount
  rw [State.takeFrameEvent_quiet hr, hresolve, State.takeRefin_quiet he, State.takeChangesTo_quiet _ hc]

/-- Settles O7: at reset values the correction run is closed and no step is ordered, so the move is ordinary. -/
theorem firstCountAfterReset : Obligations.FirstCountAfterReset := by
  intro s st refin x h hv _ hraised hedge hchanges
  obtain ⟨_, ht, hf, hp, hepoch, hrun, _, hlen, _, _, _, _, _, _, _, _, hlast, horder, hentries, _⟩ := hv
  have hend := endCount_nothing hraised hedge hchanges hentries
  have hphase : s.time.phase.toNat + 1 = 1 := by rw [hp]; rfl
  have hroom : s.time.phase.toNat + 1 < s.time.len.toNat := by
    rw [hphase, hlen]
    split <;> split <;> decide
  have hm := State.moveCount_ordinary (s := s.settle) horder (Or.inl hrun)
  rw [State.advanceCount_short 1 .ordinary (u := s.settle.modTime fun tb => { tb with run := .closed }) hroom] at hm
  refine ⟨(s.beginCount refin x).settle, rfl, ?_, State.beginCount_running refin x h, ?_, ?_, ?_⟩
  · rw [State.settle_time, State.beginCount_time refin x h, hend, hm]
    simp [ht, hf, hp, hepoch]
  · rw [State.settle_count, State.beginCount_raised refin x h, hend, hm]
    rfl
  · rw [State.settle_sync, State.beginCount_sync refin x h, hend, hm]
    rfl
  · rw [State.settle_count, State.beginCount_count refin x h, hend]
    simp [hlast]

/-! ### The count in which an event is taken (log 2, log 3) -/

section
variable {waits : State → Bool} {take : State → State} {s : State}

theorem takeOrNext_now (h : waits s = true) : s.takeOrNext waits take = take s := by
  simp [State.takeOrNext, h]

theorem takeOrNext_next (h : waits s = false) (hn : waits s.nextCount = true) :
    s.takeOrNext waits take = take s.nextCount := by
  simp [State.takeOrNext, h, hn]

theorem takeOrNext_never (h : waits s = false) (hn : waits s.nextCount = false) : s.takeOrNext waits take = s := by
  simp [State.takeOrNext, h, hn]

end

/-- Settles O14: each of the commands takes its event by `takeOrNext`. -/
theorem eventCommandsFindTheirCount : Obligations.EventCommandsFindTheirCount := by
  intro s c waits take hmem
  have hexec : ∀ u, exec c u = answer (u.takeOrNext waits take) := by
    simp only [List.mem_cons, Prod.mk.injEq, List.not_mem_nil, or_false] at hmem
    rcases hmem with ⟨rfl, rfl, rfl⟩ | ⟨rfl, rfl, rfl⟩ | ⟨rfl, rfl, rfl⟩ | ⟨rfl, rfl, rfl⟩ | ⟨rfl, rfl, rfl⟩ |
      ⟨rfl, rfl, rfl⟩ | ⟨rfl, rfl, rfl⟩ <;> exact fun _ => rfl
  refine ⟨fun h => ?_, fun h hn => ?_, fun h hn hs => ?_⟩
  · rw [hexec, takeOrNext_now h]
    rfl
  · rw [hexec, hexec, takeOrNext_next h hn, takeOrNext_now hn]
  · rw [hexec, takeOrNext_never h hn]
    exact congrArg Host.Outcome.next hs

end Sys2Proof.Machine
end

section
/-! PROOFS. The SYNC_CHANGE of a count (R111, R112; log 8): once it is posted to a port, the port's queue holds one that is
stamped with the count, whatever else the count posts, and settling gives it the body of the count's end. -/

namespace Sys2Proof.Machine

/-! ### Operations over all ports that reach one port -/

/-- What the operation of one port establishes, where the operations of all ports keep it and its premise, holds after the
operation over all ports. -/
theorem forPorts_reaches {P Q : State → Prop} {f : PortId → State → State} (p : PortId) (hP : ∀ q s, P s → P (f q s))
    (hQ : ∀ q s, Q s → Q (f q s)) (hp : ∀ s, P s → Q (f p s)) (s : State) (hs : P s) : Q (forPorts f s) := by
  have keep : ∀ (ps : List PortId) (u : State), Q u → Q (ps.foldl (fun t q => f q t) u) := fun ps => by
    induction ps with
    | nil => exact fun _ h => h
    | cons q qs ih => exact fun u h => ih _ (hQ q u h)
  have reach : ∀ ps : List PortId, p ∈ ps → ∀ u : State, P u → Q (ps.foldl (fun t q => f q t) u) := fun ps => by
    induction ps with
    | nil => exact nofun
    | cons q qs ih =>
      intro hmem u hu
      rcases List.mem_cons.mp hmem with rfl | hmem
      · exact keep qs _ (hp u hu)
      · exact ih hmem _ (hP q u hu)
  exact reach allPorts (mem_allPorts p) s hs

/-! ### The queue of one port -/

/-- The queue holds a SYNC_CHANGE of the count with the serial number, or has lost something. -/
def NoteQueue.syncAt (serial : Nat) (q : NoteQueue) : Prop :=
  q.overflow.isSome = true ∨ ∃ n ∈ q.entries, n.body.kind = .syncChange ∧ n.stamp = serial

theorem accept_enable (stamp : Nat) (b : NoteBody) (q : NoteQueue) : (q.accept stamp b).enable = q.enable := by
  unfold NoteQueue.accept
  repeat' split
  all_goals rfl

/-- A SYNC_CHANGE that is let through is in the queue, or lost. -/
theorem accept_syncAt (stamp : Nat) {b : NoteBody} (hb : b.kind = .syncChange) (q : NoteQueue) :
    (q.accept stamp b).syncAt stamp := by
  unfold NoteQueue.accept
  split
  · next h =>
    rw [Bool.and_eq_true, List.any_eq_true] at h
    obtain ⟨_, n, hn, hk⟩ := h
    refine Or.inr ⟨⟨q.counter, b, satInc 255 n.repeats, stamp⟩, List.mem_map.mpr ⟨n, hn, ?_⟩, hb, rfl⟩
    rw [if_pos (of_decide_eq_true hk)]
  · split
    · exact Or.inr ⟨_, List.mem_append_right _ (List.mem_singleton.mpr rfl), hb, rfl⟩
    · exact Or.inl rfl

/-- Any other post of the same count keeps it there; a SYNC_CHANGE re-fires it in its place. -/
theorem accept_keeps_syncAt (stamp : Nat) (b : NoteBody) {q : NoteQueue} (h : q.syncAt stamp) :
    (q.accept stamp b).syncAt stamp := by
  unfold NoteQueue.accept
  split
  · rcases h with h | ⟨n, hn, hk, hst⟩
    · exact Or.inl h
    · by_cases e : n.body.kind = b.kind
      · refine Or.inr ⟨⟨q.counter, b, satInc 255 n.repeats, stamp⟩, List.mem_map.mpr ⟨n, hn, if_pos e⟩, e.symm.trans hk, rfl⟩
      · exact Or.inr ⟨n, List.mem_map.mpr ⟨n, hn, if_neg e⟩, hk, hst⟩
  · split
    · rcases h with h | ⟨n, hn, hk, hst⟩
      · exact Or.inl h
      · exact Or.inr ⟨n, List.mem_append_left _ hn, hk, hst⟩
    · exact Or.inl rfl

namespace State

/-! ### A port that hears of the sync unit -/

/-- The port is open and enables SYNC_CHANGE. -/
def wantsSync (p : PortId) (s : State) : Prop :=
  s.isOpen p = true ∧ (s.queue p).enable.getLsbD NoteKind.syncChange.bit = true

/-- The port is open and enables SYNC_CHANGE, and holds that of the count where the count has posted it. -/
def hearsSync (p : PortId) (s : State) : Prop :=
  s.wantsSync p ∧ (s.count.syncPosted = true → (s.queue p).syncAt s.count.serial)

/-- The count has posted SYNC_CHANGE and the port holds it. -/
def heardSync (p : PortId) (s : State) : Prop := s.hearsSync p ∧ s.count.syncPosted = true

variable {s : State} {p : PortId}

theorem hearsSync_first (h : s.wantsSync p) (hc : s.count.syncPosted = false) : s.hearsSync p :=
  ⟨h, fun e => absurd (hc.symm.trans e) nofun⟩

theorem wantsSync_post (q : PortId) (b : NoteBody) (h : s.wantsSync p) : (s.post q b).wantsSync p := by
  obtain ⟨ho, he⟩ := h
  refine ⟨by rw [post_isOpen]; exact ho, ?_⟩
  rcases post_cases s q b with e | e <;> rw [e]
  · exact he
  · rw [queue_modQueue]
    split
    · next hq => subst hq; rw [accept_enable]; exact he
    · exact he

theorem hearsSync_post (q : PortId) (b : NoteBody) (h : s.hearsSync p) : (s.post q b).hearsSync p := by
  refine ⟨wantsSync_post q b h.1, fun hc => ?_⟩
  rw [post_count] at hc ⊢
  have hat := h.2 hc
  rcases post_cases s q b with e | e <;> rw [e]
  · exact hat
  · rw [queue_modQueue]
    split
    · next hq => subst hq; exact accept_keeps_syncAt _ _ hat
    · exact hat

theorem heardSync_post (q : PortId) (b : NoteBody) (h : s.heardSync p) : (s.post q b).heardSync p :=
  ⟨hearsSync_post q b h.1, by rw [post_count]; exact h.2⟩

/-- The post of SYNC_CHANGE to a port that hears of it. -/
theorem heardSync_of_post {b : NoteBody} (hb : b.kind = .syncChange) (h : s.wantsSync p) (hc : s.count.syncPosted = true) :
    (s.post p b).heardSync p := by
  obtain ⟨ho, he⟩ := id h
  refine ⟨⟨wantsSync_post p b h, fun _ => ?_⟩, by rw [post_count]; exact hc⟩
  rw [post_accepted b ho (by rw [hb]; exact he), queue_modQueue_same]
  exact accept_syncAt _ hb _

/-- An occasion of SYNC_CHANGE leaves it posted in the count (R112). -/
theorem heardSync_noteSync (h : s.hearsSync p) : s.noteSync.heardSync p := by
  unfold noteSync
  split
  · next hc => exact ⟨h, hc⟩
  · refine forPorts_reaches (P := fun t => t.wantsSync p ∧ t.count.syncPosted = true) p (fun q t ht => ?_)
      (fun q t => heardSync_post q _) (fun t ht => heardSync_of_post rfl ht.1 ht.2) _ ⟨h.1, rfl⟩
    exact ⟨wantsSync_post q _ ht.1, by rw [post_count]; exact ht.2⟩

theorem hearsSync_answerDeferred (q : PortId) (o : DeferredOwner) (r : Result) (b : Body) (h : s.hearsSync p) :
    (s.answerDeferred q o r b).hearsSync p := by
  have hopen : (s.answerDeferred q o r b).isOpen p = s.isOpen p := by
    rcases answerDeferred_cases s q o r b with e | ⟨_, _, e⟩ <;> rw [e]
    simp only [isOpen, port_modPort]
    split
    · next hq => rw [hq]
    · rfl
  have hrest : (s.answerDeferred q o r b).notes = s.notes ∧ (s.answerDeferred q o r b).count = s.count :=
    ⟨answerDeferred_same s (·.notes) (fun _ _ _ => rfl) q o r b, answerDeferred_same s (·.count) (fun _ _ _ => rfl) q o r b⟩
  unfold hearsSync wantsSync queue at h ⊢
  rw [hopen, hrest.1, hrest.2]
  exact h

/-- A frame boundary event keeps the SYNC_CHANGE of its count in the queue. -/
theorem hearsSync_frameBoundary (h : s.hearsSync p) : s.frameBoundary.hearsSync p :=
  frameBoundary_keeps (P := fun t => t.hearsSync p) (fun _ ht => (heardSync_noteSync ht).1) (fun _ q b => hearsSync_post q b)
    (fun _ q o r b => hearsSync_answerDeferred q o r b) (fun _ _ _ ht => ht) (fun _ _ ht => ht) (fun _ _ ht => ht)
    (fun _ _ ht => ht) s h

/-- Resolutions keep the SYNC_CHANGE of their count in the queue. -/
theorem heardSync_resolveAll (h : s.heardSync p) : s.resolveAll.heardSync p :=
  resolveHeads_keeps (P := fun t => t.heardSync p)
    (resolveOne_keeps (fun _ q _ _ _ _ _ _ => heardSync_post q _) (fun _ _ _ ht => ht) (fun _ _ ht => ht)) _ _ s h

/-- A SYNC_CHANGE of the count carries the state, epoch and e of the count's end (R112). -/
theorem noted_of_heardSync {s u : State} (h : s.wantsSync p → u.heardSync p) :
    s.noted u.settle p (.syncChange u.settle.sync.state u.settle.time.epoch u.settle.sync.lastE) := by
  intro ho he hov
  have hu := h ⟨ho, he⟩
  rw [settle_queue_eq] at hov ⊢
  rcases hu.1.2 hu.2 with hlost | ⟨n, hn, hk, hst⟩
  · rw [hov] at hlost; cases hlost
  · refine ⟨n.refresh u, List.mem_map_of_mem hn, ?_⟩
    rw [Note.refresh, if_pos ⟨hst, hk⟩]
    rfl

end State
end Sys2Proof.Machine
end

section
/-! PROOFS. Frame events: what a frame boundary event does at the time base (R5 to R7), and a backward step (R10). -/

namespace Sys2Proof.Machine
namespace State

variable {s : State}

/-! ### The frame boundary event that a command takes -/

theorem boundaryWaits_of_forwardWaits (h : s.forwardWaits = true) : s.boundaryWaits = true := by
  unfold forwardWaits at h
  rw [Bool.and_eq_true] at h
  unfold boundaryWaits
  rw [h.1, Bool.true_and, decide_eq_true_eq]
  intro e
  rw [e] at h
  exact nomatch h.2

/-- FRAME_BOUNDARY_EVENT takes the event alone; FORWARD_STEP resolves the entries after it. -/
theorem exec_boundaryTakenBy {c : Instr} (h : s.boundaryTakenBy c) : s.boundaryWaits = true ∧
    ((c = .frameBoundaryEvent ∧ exec c s = .next s.takeFrameEvent.settle) ∨
      (c = .forwardStep ∧ exec c s = .next s.takeFrameEvent.resolveAll.settle)) := by
  rcases h with ⟨rfl, h⟩ | ⟨rfl, h⟩
  · refine ⟨h, Or.inl ⟨rfl, ?_⟩⟩
    show answer (s.takeOrNext boundaryWaits takeFrameEvent) = _
    rw [takeOrNext_now h]
    rfl
  · refine ⟨boundaryWaits_of_forwardWaits h, Or.inr ⟨rfl, ?_⟩⟩
    show answer (s.takeOrNext forwardWaits fun t => t.takeFrameEvent.resolveAll) = _
    rw [takeOrNext_now h]
    rfl

/-! ### The fields after a frame boundary event of a count -/

section
variable (h : s.boundaryWaits = true)
include h

theorem takeFrameEvent_raised : s.takeFrameEvent.count.raised = false :=
  (takeFrameEvent_boundary s (·.count.raised) (fun _ _ _ => rfl) (fun _ => rfl) h).trans (frameBoundary_raised _)

theorem takeFrameEvent_schedule : s.takeFrameEvent.schedule = s.schedule :=
  (takeFrameEvent_boundary s (·.schedule) (fun _ _ _ => rfl) (fun _ => rfl) h).trans (frameBoundary_schedule _)

theorem takeFrameEvent_journal : s.takeFrameEvent.journal = s.journal :=
  (takeFrameEvent_boundary s (·.journal) (fun _ _ _ => rfl) (fun _ => rfl) h).trans (frameBoundary_journal _)

theorem takeFrameEvent_measured : s.takeFrameEvent.sync.measured = false := by
  rw [takeFrameEvent_boundary s (·.sync) (fun _ _ _ => rfl) (fun _ => rfl) h, frameBoundary_sync, boundaryPlanAndSync_sync]

/-- L in use becomes the frame length of the plan record as the event leaves it, and a correction run opens (R6, R7). -/
theorem takeFrameEvent_time : s.takeFrameEvent.time =
    { s.time with len := s.takeFrameEvent.plan.record.frameLength, run := .opened, performed := 0 } := by
  rw [takeFrameEvent_boundary s (·.time) (fun _ _ _ => rfl) (fun _ => rfl) h,
    takeFrameEvent_boundary s (·.plan) (fun _ _ _ => rfl) (fun _ => rfl) h, frameBoundary_time]
  rfl

end

/-! ### The fields after the resolutions of a count -/

@[simp] theorem resolveAll_time (s : State) : s.resolveAll.time = s.time :=
  resolveHeads_same (·.time) (fun _ _ _ => rfl) (fun _ _ _ => rfl) (fun _ _ => rfl) _ _ s
@[simp] theorem resolveAll_sync (s : State) : s.resolveAll.sync = s.sync :=
  resolveHeads_same (·.sync) (fun _ _ _ => rfl) (fun _ _ _ => rfl) (fun _ _ => rfl) _ _ s
@[simp] theorem resolveAll_plan (s : State) : s.resolveAll.plan = s.plan :=
  resolveHeads_same (·.plan) (fun _ _ _ => rfl) (fun _ _ _ => rfl) (fun _ _ => rfl) _ _ s
@[simp] theorem resolveAll_count (s : State) : s.resolveAll.count = s.count :=
  resolveHeads_same (·.count) (fun _ _ _ => rfl) (fun _ _ _ => rfl) (fun _ _ => rfl) _ _ s
@[simp] theorem resolveAll_journal (s : State) : s.resolveAll.journal = s.journal :=
  resolveHeads_same (·.journal) (fun _ _ _ => rfl) (fun _ _ _ => rfl) (fun _ _ => rfl) _ _ s
@[simp] theorem resolveAll_counter (s : State) : s.resolveAll.schedule.counter = s.schedule.counter :=
  resolveHeads_same (·.schedule.counter) (fun _ _ _ => rfl) (fun _ _ _ => rfl) (fun _ _ => rfl) _ _ s

end State

/-- Settles O15: the event itself makes every change named, and the resolutions of FORWARD_STEP keep them. -/
theorem frameBoundaryBeginsTheFrame : Obligations.FrameBoundaryBeginsTheFrame := by
  intro s c h
  obtain ⟨hw, ⟨rfl, he⟩ | ⟨rfl, he⟩⟩ := State.exec_boundaryTakenBy h
  · refine ⟨_, he, State.takeFrameEvent_raised hw, State.takeFrameEvent_time hw, State.takeFrameEvent_measured hw,
      by rw [State.settle_journal, State.takeFrameEvent_journal hw],
      congrArg Schedule.counter (State.takeFrameEvent_schedule hw), fun _ => State.takeFrameEvent_schedule hw⟩
  · refine ⟨_, he, ?_, ?_, ?_, ?_, ?_, nofun⟩
    · rw [State.settle_count, State.resolveAll_count, State.takeFrameEvent_raised hw]
    · rw [State.settle_time, State.settle_plan, State.resolveAll_time, State.resolveAll_plan, State.takeFrameEvent_time hw]
    · rw [State.settle_sync, State.resolveAll_sync, State.takeFrameEvent_measured hw]
    · rw [State.settle_journal, State.resolveAll_journal, State.takeFrameEvent_journal hw]
    · rw [State.settle_schedule, State.resolveAll_counter, State.takeFrameEvent_schedule hw]

/-! ### A frame restart (R10) -/

namespace State
variable {s : State}

theorem backwardWaits_iff : s.backwardWaits = true ↔ s.count.raised = true ∧ s.count.move = .backward := by
  simp [backwardWaits]

/-- A value that the sync unit, the time base, the queues and the marks of the count do not hold. -/
theorem takeFrameEvent_backward_same {α : Type} (g : State → α) (hq : ∀ (s : State) p f, g (s.modQueue p f) = g s)
    (hc : ∀ (s : State) f, g (s.modCount f) = g s) (hs : ∀ (s : State) f, g (s.modSync f) = g s)
    (ht : ∀ (s : State) f, g (s.modTime f) = g s) (h : s.backwardWaits = true) : g s.takeFrameEvent = g s := by
  obtain ⟨hr, hm⟩ := backwardWaits_iff.mp h
  rw [takeFrameEvent_backward s hr hm]
  unfold frameRestart
  rw [noteSync_same _ g hq fun u => hc u fun c => { c with syncPosted := true }, ht, hs, hc]

section
variable (h : s.backwardWaits = true)
include h

theorem takeFrameEvent_backward_time : s.takeFrameEvent.time = { s.time with run := .opened, performed := 0 } := by
  obtain ⟨hr, hm⟩ := backwardWaits_iff.mp h
  rw [takeFrameEvent_backward s hr hm]
  exact noteSync_same _ (·.time) (fun _ _ _ => rfl) fun _ => rfl

theorem takeFrameEvent_backward_sync : s.takeFrameEvent.sync = { s.sync with measured := false } := by
  obtain ⟨hr, hm⟩ := backwardWaits_iff.mp h
  rw [takeFrameEvent_backward s hr hm]
  exact noteSync_same _ (·.sync) (fun _ _ _ => rfl) fun _ => rfl

theorem takeFrameEvent_backward_raised : s.takeFrameEvent.count.raised = false := by
  obtain ⟨hr, hm⟩ := backwardWaits_iff.mp h
  rw [takeFrameEvent_backward s hr hm]
  exact noteSync_same _ (·.count.raised) (fun _ _ _ => rfl) fun _ => rfl

theorem takeFrameEvent_backward_schedule : s.takeFrameEvent.schedule = s.schedule :=
  takeFrameEvent_backward_same (·.schedule) (fun _ _ _ => rfl) (fun _ _ => rfl) (fun _ _ => rfl) (fun _ _ => rfl) h
theorem takeFrameEvent_backward_plan : s.takeFrameEvent.plan = s.plan :=
  takeFrameEvent_backward_same (·.plan) (fun _ _ _ => rfl) (fun _ _ => rfl) (fun _ _ => rfl) (fun _ _ => rfl) h
theorem takeFrameEvent_backward_line (k : LineId) : s.takeFrameEvent.line k = s.line k :=
  takeFrameEvent_backward_same (·.line k) (fun _ _ _ => rfl) (fun _ _ => rfl) (fun _ _ => rfl) (fun _ _ => rfl) h
theorem takeFrameEvent_backward_ports : s.takeFrameEvent.ports = s.ports :=
  takeFrameEvent_backward_same (·.ports) (fun _ _ _ => rfl) (fun _ _ => rfl) (fun _ _ => rfl) (fun _ _ => rfl) h

/-- The restart posts SYNC_CHANGE where its count has posted none. -/
theorem takeFrameEvent_backward_heard {p : PortId} (hp : s.hearsSync p) : s.takeFrameEvent.heardSync p := by
  obtain ⟨hr, hm⟩ := backwardWaits_iff.mp h
  rw [takeFrameEvent_backward s hr hm]
  exact heardSync_noteSync hp

/-- No answer shows the correction run or whether the frame is measured, which are what a restart changes. -/
theorem response_refresh_restart (p : PortId) (r : Response) : r.refresh s.takeFrameEvent p = r.refresh s p := by
  obtain ⟨hr, hm⟩ := backwardWaits_iff.mp h
  have hposted : SameReports s.takeFrameEvent
      (((s.modCount fun c => { c with raised := false }).modSync fun u => { u with measured := false }).modTime
        TimeBase.openRun) := by
    have hports := takeFrameEvent_backward_ports h
    have hjournal : s.takeFrameEvent.journal = s.journal :=
      takeFrameEvent_backward_same (·.journal) (fun _ _ _ => rfl) (fun _ _ => rfl) (fun _ _ => rfl) (fun _ _ => rfl) h
    have hserial : s.takeFrameEvent.count.serial = s.count.serial := congrArg Stable.serial (stable_takeFrameEvent s)
    refine ⟨takeFrameEvent_backward_time h, takeFrameEvent_backward_sync h, takeFrameEvent_backward_plan h, hserial,
      congrArg Schedule.entries (takeFrameEvent_backward_schedule h), by rw [hjournal]; rfl, by rw [hjournal]; rfl,
      fun q => ?_, fun q => ?_⟩
    · simp only [isOpen, port, hports]; rfl
    · simp only [port, hports]; rfl
  rw [hposted.response]
  obtain ⟨_, _, _, b, _⟩ := r
  cases b <;> rfl

theorem takeFrameEvent_backward_settle_ports : s.takeFrameEvent.settle.ports = s.settle.ports := by
  refine vector_ext_fin fun p => ?_
  rw [settle_ports_get, settle_ports_get, takeFrameEvent_backward_ports h]
  simp only [refreshPort, funext (response_refresh_restart h p)]

theorem takeFrameEvent_backward_settle_line (k : LineId) : s.takeFrameEvent.settle.line k = s.settle.line k := by
  rw [settle_line, settle_line, takeFrameEvent_backward_line h, takeFrameEvent_backward_time h]

end

/-! ### The count of a backward step (R9, R10) -/

section
variable {o : StepOrder} (hr : s.resetLow = false) (ho : s.endCount.sync.stepOrder = some o)
include hr ho

theorem nextCount_backward_waits (he : 0 < o.e) : s.nextCount.backwardWaits = true := by
  rw [backwardWaits_iff]
  unfold nextCount
  rw [beginCount_raised _ _ hr, beginCount_move _ _ hr, moveCount_backward ho he]
  exact ⟨rfl, rfl⟩

theorem nextCount_backward_time (he : 0 < o.e) : s.nextCount.time =
    { s.endCount.time with
      t := s.endCount.time.t - BitVec.ofInt 48 o.e, phase := 0, epoch := s.endCount.time.epoch + 1 } := by
  unfold nextCount
  rw [beginCount_time _ _ hr, moveCount_backward ho he]
  rfl

theorem nextCount_step_sync : s.nextCount.sync =
    { s.endCount.sync with stepOrder := none, refinLast := some s.refinIn } := by
  unfold nextCount
  rw [beginCount_sync _ _ hr]
  by_cases he : 0 < o.e
  · rw [moveCount_backward ho he]; rfl
  · rw [moveCount_forward ho he]; rfl

end

theorem moveCount_syncPosted (s : State) : s.moveCount.count.syncPosted = false := by
  unfold moveCount correctCount backwardCount forwardCount
  repeat' split
  all_goals rfl

/-- A new count has posted no SYNC_CHANGE, and leaves ports and queues to their events. -/
theorem nextCount_hearsSync {p : PortId} (hr : s.resetLow = false) (h : s.endCount.wantsSync p) :
    s.nextCount.hearsSync p := by
  have hports : s.nextCount.ports = s.endCount.ports := beginCount_ports _ _ hr
  have hnotes : s.nextCount.notes = s.endCount.notes := beginCount_notes _ _ hr
  refine hearsSync_first ?_ ?_
  · unfold wantsSync isOpen port queue at h ⊢
    rw [hports, hnotes]
    exact h
  · unfold nextCount
    rw [beginCount_count _ _ hr]
    exact moveCount_syncPosted _

/-- A sample changes no program. -/
theorem sampled_programs (v : Level) (l : Line) : (l.sampled v).staged = l.staged ∧ (l.sampled v).active = l.active := by
  unfold Line.sampled
  repeat' split
  all_goals exact ⟨rfl, rfl⟩

theorem beginCount_programs (refin : Level) (x : LineSet) (hr : s.resetLow = false) (k : LineId) :
    ((s.beginCount refin x).line k).staged = (s.endCount.line k).staged ∧
      ((s.beginCount refin x).line k).active = (s.endCount.line k).active := by
  rw [beginCount_line refin x hr, atPhase_staged, atPhase_active]
  exact sampled_programs _ _

end State

/-- Settles O22: BACKWARD_STEP takes the restart of a backward step's count, which it begins where none is in progress. -/
theorem backwardStepRestartsTheFrame : Obligations.BackwardStepRestartsTheFrame := by
  have hexec : ∀ s, exec .backwardStep s = answer (s.takeOrNext State.backwardWaits State.takeFrameEvent) := fun _ => rfl
  refine ⟨fun s o hr hw ho he => ?_, fun s h => ?_⟩
  · have h := State.nextCount_backward_waits hr ho he
    have hplan : s.nextCount.plan = s.endCount.plan := State.beginCount_plan _ _ hr
    have hschedule : s.nextCount.schedule = s.endCount.schedule := State.beginCount_schedule _ _ hr
    refine ⟨s.nextCount.takeFrameEvent.settle, ?_, ?_, ?_, State.takeFrameEvent_backward_raised h,
      (State.takeFrameEvent_backward_schedule h).trans hschedule, (State.takeFrameEvent_backward_plan h).trans hplan,
      fun p => State.noted_of_heardSync fun hp => ?_, fun k => ?_⟩
    · rw [hexec, takeOrNext_next hw h]; rfl
    · rw [State.settle_time, State.takeFrameEvent_backward_time h, State.nextCount_backward_time hr ho he]
    · rw [State.settle_sync, State.takeFrameEvent_backward_sync h, State.nextCount_step_sync hr ho]
    · exact State.takeFrameEvent_backward_heard h (State.nextCount_hearsSync hr hp)
    · rw [State.settle_line, atPhase_staged, atPhase_active, State.takeFrameEvent_backward_line h]
      exact State.beginCount_programs s.refinIn s.lineIn hr k
  · refine ⟨s.takeFrameEvent.settle, ?_, State.takeFrameEvent_backward_time h, State.takeFrameEvent_backward_sync h,
      State.takeFrameEvent_backward_raised h, State.takeFrameEvent_backward_schedule h, State.takeFrameEvent_backward_plan h,
      State.takeFrameEvent_backward_settle_ports h, fun hc p => State.noted_of_heardSync fun hp => ?_,
      State.takeFrameEvent_backward_settle_line h⟩
    · rw [hexec, takeOrNext_now h]; rfl
    · exact State.takeFrameEvent_backward_heard h (State.hearsSync_first hp hc)

end Sys2Proof.Machine
end

section
/-! PROOFS. The order of the list (R20, R21), and a forward step (R11, R38, R39): in a list in order, the resolutions at its
head leave no entry that is due. -/

namespace Sys2Proof.Machine

/-! ### Times measured forward -/

/-- Distances forward add up on the circle of times. -/
theorem forward_add (a b c : TimeCount) : forward a c = (forward a b + forward b c) % 2 ^ 48 := by
  have ha := a.isLt
  have hb := b.isLt
  have hc := c.isLt
  simp only [forward, BitVec.toNat_sub]
  omega

/-- A time a width further on. -/
theorem forward_add_width (a b : TimeCount) (w : Phase) :
    forward a (b + w.zeroExtend 48) = (forward a b + w.toNat) % 2 ^ 48 := by
  have ha := a.isLt
  have hb := b.isLt
  have hw := w.isLt
  have e : (w.zeroExtend 48).toNat = w.toNat := by
    show (w.setWidth 48).toNat = w.toNat
    rw [BitVec.toNat_setWidth]
    omega
  simp only [forward, BitVec.toNat_sub, BitVec.toNat_add, e]
  omega

/-! ### Placement -/

/-- Placement adds the entry and nothing else. -/
theorem place_perm (ref : TimeCount) (x : Entry) (l : List Entry) : (place ref x l).Perm (x :: l) := by
  induction l with
  | nil => exact List.Perm.refl _
  | cons y ys ih =>
    unfold place
    split
    · exact (ih.cons y).trans (List.Perm.swap x y ys)
    · exact List.Perm.refl _

/-- The effective times do not decrease from head to tail, measured forward from `ref` (R21). -/
def inOrder (ref : TimeCount) (l : List Entry) : Prop :=
  l.Pairwise fun a b => forward ref a.effective ≤ forward ref b.effective

/-- Placement keeps the order. -/
theorem place_inOrder (ref : TimeCount) (x : Entry) {l : List Entry} (h : inOrder ref l) : inOrder ref (place ref x l) := by
  unfold inOrder at h ⊢
  induction l with
  | nil => exact List.pairwise_singleton _ _
  | cons y ys ih =>
    rw [List.pairwise_cons] at h
    unfold place
    split
    · next hle =>
      refine List.pairwise_cons.mpr ⟨fun z hz => ?_, ih h.2⟩
      rcases List.mem_cons.mp ((place_perm ref x ys).mem_iff.mp hz) with rfl | hz
      · exact hle
      · exact h.1 z hz
    · next hlt =>
      refine List.pairwise_cons.mpr ⟨fun z hz => ?_, List.pairwise_cons.mpr h⟩
      rcases List.mem_cons.mp hz with rfl | hz
      · omega
      · exact Nat.le_trans (by omega) (h.1 z hz)

namespace State

/-! ### Lists whose due entries stand at the head -/

/-- An effective time has been reached, measured from the reference of the count, or lies well within the range ahead. -/
def placed (s : State) (x : TimeCount) : Prop :=
  forward s.count.ref x ≤ forward s.count.ref s.time.t ∨ forward s.time.t x ≤ 2 ^ 41

/-- The list is in order, and every effective time is placed. -/
structure Ordered (s : State) : Prop where
  near : forward s.count.ref s.time.t < 2 ^ 24
  order : inOrder s.count.ref s.schedule.entries
  placed : ∀ x ∈ s.schedule.entries, s.placed x.effective

theorem ordered_of_listInOrder {s : State} (h : s.listInOrder) : s.Ordered := by
  obtain ⟨_, hnear, _, horder, hrange⟩ := h
  exact ⟨hnear, horder, fun x hx => (hrange x hx).2.imp id fun _ => by omega⟩

variable {s : State}

/-- A placed time is ahead of T exactly where it lies further from the reference. -/
theorem ahead_iff_further {x : TimeCount} (hn : forward s.count.ref s.time.t < 2 ^ 24) (hx : s.placed x) :
    ahead s.time.t x = true ↔ forward s.count.ref s.time.t < forward s.count.ref x := by
  have hadd := forward_add s.count.ref s.time.t x
  have hlt : forward s.time.t x < 2 ^ 48 := (x - s.time.t).isLt
  unfold ahead
  rw [Bool.and_eq_true, decide_eq_true_eq, decide_eq_true_eq]
  rcases hx with hx | hx <;> omega

/-- A pulse that starts now ends a width after T (R38). -/
theorem placed_now (s : State) (w : Phase) : s.placed (s.time.t + w.zeroExtend 48) := by
  have hw := w.isLt
  have hself : forward s.time.t s.time.t = 0 := by simp [forward]
  have hend := forward_add_width s.time.t s.time.t w
  exact Or.inr (by omega)

/-- A pulse that is due ends a width after its due time, which has been reached (R35). -/
theorem placed_due {x : TimeCount} (hn : forward s.count.ref s.time.t < 2 ^ 24)
    (hx : forward s.count.ref x ≤ forward s.count.ref s.time.t) (w : Phase) : s.placed (x + w.zeroExtend 48) := by
  have hw := w.isLt
  have hend := forward_add_width s.count.ref x w
  have hadd := forward_add s.count.ref s.time.t (x + w.zeroExtend 48)
  have hlt : forward s.time.t (x + w.zeroExtend 48) < 2 ^ 48 := (x + w.zeroExtend 48 - s.time.t).isLt
  unfold placed
  omega

/-! ### One resolution at the head -/

/-- Where the end time of a pulse that starts in the count lies. -/
def startsAt (s : State) (x : Entry) (g : Pulse) : Prop :=
  g.endTime = s.time.t + x.width.zeroExtend 48 ∨ g.endTime = x.due + x.width.zeroExtend 48

@[simp] theorem trail_schedule (s : State) (k : LineId) (kd : ActionKind) : (s.trail k kd).schedule = s.schedule := by
  unfold trail
  split <;> rfl

/-- The resolution of the head takes it off the list, or places it again as IN_PULSE (R33, R45). -/
theorem resolveOne_entries (x : Entry) (rest : List Entry) (h : s.schedule.entries = x :: rest) :
    (s.resolveOne x).schedule.entries = rest ∨ x.pulse = none ∧ ∃ g, s.startsAt x g ∧
      (s.resolveOne x).schedule.entries = place s.count.ref { x with pulse := some g } rest := by
  have removed : ∀ (u : State) out, u.schedule = s.schedule → (u.resolve x out).schedule.entries = rest := fun u out hu => by
    rw [resolve_entries, hu, h]
    exact remove_head x rest
  have started : ∀ (u : State) g, u.schedule = s.schedule → u.count = s.count →
      (u.startPulse x g).schedule.entries = place s.count.ref { x with pulse := some g } rest := fun u g hu hc => by
    unfold startPulse
    rw [setEntries_schedule, hu, hc, h, remove_head]
  have hdue : (s.resolveDue x).schedule.entries = rest ∨ x.pulse = none ∧ ∃ g, s.startsAt x g ∧
      (s.resolveDue x).schedule.entries = place s.count.ref { x with pulse := some g } rest := by
    unfold resolveDue
    split
    · exact Or.inl (removed _ _ (trail_schedule _ _ _))
    · next hp =>
      repeat' split
      · exact Or.inl (removed _ _ rfl)
      · exact Or.inr ⟨hp, _, Or.inr rfl, started _ _ rfl rfl⟩
      · exact Or.inl (removed _ _ rfl)
  have hjumped : ∀ held, (s.resolveJumped held x).schedule.entries = rest ∨ x.pulse = none ∧ ∃ g, s.startsAt x g ∧
      (s.resolveJumped held x).schedule.entries = place s.count.ref { x with pulse := some g } rest := fun held => by
    unfold resolveJumped
    split
    · exact Or.inl (removed _ _ (trail_schedule _ _ _))
    · next hp =>
      repeat' split
      · exact Or.inl (removed _ _ rfl)
      · exact Or.inl (removed _ _ rfl)
      · exact Or.inr ⟨hp, _, Or.inl rfl, started _ _ rfl rfl⟩
      · exact Or.inl (removed _ _ rfl)
  unfold resolveOne
  repeat' split
  · exact hdue
  · exact hjumped _
  all_goals exact hdue

@[simp] theorem resolveOne_time (s : State) (x : Entry) : (s.resolveOne x).time = s.time :=
  resolveOne_same (·.time) (fun _ _ _ => rfl) (fun _ _ _ => rfl) (fun _ _ => rfl) s x
@[simp] theorem resolveOne_count (s : State) (x : Entry) : (s.resolveOne x).count = s.count :=
  resolveOne_same (·.count) (fun _ _ _ => rfl) (fun _ _ _ => rfl) (fun _ _ => rfl) s x

theorem effective_pending {x : Entry} (h : x.pulse = none) : x.effective = x.due := by
  unfold Entry.effective
  rw [h]

/-- The resolution of a due head keeps the list in order. -/
theorem ordered_resolveOne (ho : s.Ordered) (x : Entry) (rest : List Entry) (h : s.schedule.entries = x :: rest)
    (hdue : s.isDue x = true) : (s.resolveOne x).Ordered := by
  obtain ⟨hnear, horder, hplaced⟩ := ho
  have hrest : inOrder s.count.ref rest ∧ ∀ y ∈ rest, s.placed y.effective := by
    rw [h] at horder hplaced
    exact ⟨(List.pairwise_cons.mp horder).2, fun y hy => hplaced y (List.mem_cons_of_mem x hy)⟩
  have hreached : forward s.count.ref x.effective ≤ forward s.count.ref s.time.t := by
    have hx := ahead_iff_further hnear (hplaced x (by rw [h]; exact List.mem_cons_self))
    rw [isDue, Bool.not_eq_true'] at hdue
    exact Nat.not_lt.mp fun hlt => absurd (hdue.symm.trans (hx.mpr hlt)) nofun
  have order_of : ∀ l, inOrder s.count.ref l → (∀ y ∈ l, s.placed y.effective) →
      (s.resolveOne x).schedule.entries = l → (s.resolveOne x).Ordered := fun l hl hp e => by
    refine ⟨by rw [resolveOne_count, resolveOne_time]; exact hnear, by rw [resolveOne_count, e]; exact hl, fun y hy => ?_⟩
    unfold placed
    rw [resolveOne_count, resolveOne_time]
    exact hp y (e ▸ hy)
  rcases resolveOne_entries x rest h with e | ⟨hp, g, hg, e⟩
  · exact order_of rest hrest.1 hrest.2 e
  · refine order_of _ (place_inOrder _ _ hrest.1) (fun y hy => ?_) e
    rcases List.mem_cons.mp ((place_perm _ _ _).mem_iff.mp hy) with rfl | hy
    · rw [effective_pending hp] at hreached
      show s.placed g.endTime
      rcases hg with hg | hg <;> rw [hg]
      · exact placed_now s x.width
      · exact placed_due hnear hreached x.width
    · exact hrest.2 y hy

/-! ### All resolutions of a count -/

/-- The resolutions an entry can still have: two where it is PENDING, one where it is IN_PULSE. -/
def resolutionsLeft (x : Entry) : Nat := if x.pulse.isNone then 2 else 1

/-- The resolutions the list can still have. -/
def fuelNeeded (s : State) : Nat := (s.schedule.entries.map resolutionsLeft).sum

theorem fuelNeeded_le (s : State) : s.fuelNeeded ≤ s.resolveFuel := by
  unfold fuelNeeded resolveFuel
  induction s.schedule.entries with
  | nil => exact Nat.le_refl _
  | cons x xs ih =>
    have hx : resolutionsLeft x ≤ 2 := by unfold resolutionsLeft; split <;> omega
    rw [List.map_cons, List.sum_cons, List.length_cons]
    omega

/-- A resolution at the head uses one up. -/
theorem fuelNeeded_resolveOne (x : Entry) (rest : List Entry) (h : s.schedule.entries = x :: rest) :
    (s.resolveOne x).fuelNeeded < s.fuelNeeded := by
  have hs : s.fuelNeeded = resolutionsLeft x + (rest.map resolutionsLeft).sum := by
    rw [fuelNeeded, h, List.map_cons, List.sum_cons]
  rcases resolveOne_entries x rest h with e | ⟨hp, g, _, e⟩
  · have hx : 1 ≤ resolutionsLeft x := by unfold resolutionsLeft; split <;> omega
    rw [hs, fuelNeeded, e]
    omega
  · have hx : resolutionsLeft x = 2 := by rw [resolutionsLeft, hp]; rfl
    have hg : resolutionsLeft { x with pulse := some g } = 1 := rfl
    rw [hs, fuelNeeded, e, ((place_perm _ _ _).map resolutionsLeft).sum_eq, List.map_cons, List.sum_cons, hx, hg]
    omega

section
variable (go : State → Bool) (n : Nat)

theorem resolveHeads_nil (h : s.schedule.entries = []) : resolveHeads go n s = s := by
  cases n with
  | zero => rfl
  | succ n => simp only [resolveHeads, h]

theorem resolveHeads_ahead {x : Entry} {rest : List Entry} (h : s.schedule.entries = x :: rest) (hx : s.isDue x = false) :
    resolveHeads go n s = s := by
  cases n with
  | zero => rfl
  | succ n => simp [resolveHeads, h, hx]

theorem resolveHeads_due {x : Entry} {rest : List Entry} (h : s.schedule.entries = x :: rest) (hx : s.isDue x = true)
    (hgo : go s = true) : resolveHeads go (n + 1) s = resolveHeads go n (s.resolveOne x) := by
  simp [resolveHeads, h, hx, hgo]

end

/-- Where the head of a list in order is ahead of T, every entry is. -/
theorem ahead_of_head (ho : s.Ordered) {y : Entry} {rest : List Entry} (hl : s.schedule.entries = y :: rest)
    (hy : s.isDue y = false) : ∀ x ∈ s.schedule.entries, ahead s.time.t x.effective = true := by
  obtain ⟨hnear, horder, hplaced⟩ := ho
  rw [isDue, Bool.not_eq_false'] at hy
  intro x hx
  have hle : forward s.count.ref y.effective ≤ forward s.count.ref x.effective := by
    rw [hl] at hx horder
    rcases List.mem_cons.mp hx with rfl | hx
    · exact Nat.le_refl _
    · exact (List.pairwise_cons.mp horder).1 x hx
  rw [ahead_iff_further hnear (hplaced y (by rw [hl]; exact List.mem_cons_self))] at hy
  rw [ahead_iff_further hnear (hplaced x hx)]
  exact Nat.lt_of_lt_of_le hy hle

/-- With fuel enough, the resolutions at the head of a list in order leave every entry ahead of T. -/
theorem resolveHeads_leaves_ahead (n : Nat) (s : State) (ho : s.Ordered) (hn : s.fuelNeeded ≤ n) :
    ∀ x ∈ (resolveHeads (fun _ => true) n s).schedule.entries, ahead s.time.t x.effective = true := by
  induction n generalizing s with
  | zero =>
    intro x hx
    have hx' : x ∈ s.schedule.entries := hx
    obtain ⟨pre, post, e⟩ := List.append_of_mem hx'
    have hpos : 1 ≤ resolutionsLeft x := by unfold resolutionsLeft; split <;> omega
    rw [fuelNeeded, e, List.map_append, List.map_cons, List.sum_append, List.sum_cons] at hn
    omega
  | succ n ih =>
    cases hl : s.schedule.entries with
    | nil =>
      rw [resolveHeads_nil _ _ hl, hl]
      exact nofun
    | cons y rest =>
      cases hdue : s.isDue y with
      | true =>
        have hstep := ih (s.resolveOne y) (ordered_resolveOne ho y rest hl hdue)
          (Nat.le_of_lt_succ (Nat.lt_of_lt_of_le (fuelNeeded_resolveOne y rest hl) hn))
        rw [resolveHeads_due _ _ hl hdue rfl]
        rwa [resolveOne_time] at hstep
      | false =>
        rw [resolveHeads_ahead _ _ hl hdue]
        exact ahead_of_head ho hl hdue

/-- In a list in order, no entry is due after the resolutions of a count (R33, R39). -/
theorem resolveAll_leaves_ahead (ho : s.Ordered) :
    ∀ x ∈ s.resolveAll.schedule.entries, ahead s.time.t x.effective = true :=
  resolveHeads_leaves_ahead _ s ho s.fuelNeeded_le

/-! ### The count of a forward step (R9, R11) -/

section
variable {o : StepOrder} (hr : s.resetLow = false) (ho : s.endCount.sync.stepOrder = some o) (he : o.e < 0)
include hr ho he

theorem nextCount_forward_time : s.nextCount.time =
    { s.endCount.time with
      t := s.endCount.time.t - BitVec.ofInt 48 o.e, phase := 0, frame := s.endCount.time.frame + 1,
      epoch := s.endCount.time.epoch + 1 } := by
  unfold nextCount
  rw [beginCount_time _ _ hr, moveCount_forward ho (by omega)]
  rfl

theorem nextCount_forward_move : s.nextCount.count.move = .forward o.state := by
  unfold nextCount
  rw [beginCount_move _ _ hr, moveCount_forward ho (by omega)]
  rfl

theorem nextCount_forward_waits : s.nextCount.forwardWaits = true := by
  have hraised : s.nextCount.count.raised = true := by
    unfold nextCount
    rw [beginCount_raised _ _ hr, moveCount_forward ho (by omega)]
    rfl
  rw [forwardWaits, hraised, nextCount_forward_move hr ho he]
  rfl

end

/-! ### The boundary event of a forward step -/

section
variable (h : s.forwardWaits = true)
include h

theorem takeFrameEvent_forward :
    s.takeFrameEvent = (s.modCount fun c => { c with raised := false }).frameBoundary.noteSync := by
  unfold forwardWaits at h
  rw [Bool.and_eq_true] at h
  obtain ⟨hr, hf⟩ := h
  unfold takeFrameEvent frameEvent
  rw [if_pos hr]
  cases hm : s.count.move with
  | forward held => rfl
  | ordinary | insertion | deletion | backward => rw [hm] at hf; cases hf

/-- The event posts SYNC_CHANGE where its count has posted none (R111, R112). -/
theorem takeFrameEvent_forward_heard {p : PortId} (hp : s.hearsSync p) : s.takeFrameEvent.heardSync p := by
  rw [takeFrameEvent_forward h]
  exact heardSync_noteSync (hearsSync_frameBoundary (s := s.modCount fun c => { c with raised := false }) hp)

/-- The event leaves the list and the times it is measured by. -/
theorem takeFrameEvent_forward_ordered (ho : s.Ordered) : s.takeFrameEvent.Ordered := by
  have hw := boundaryWaits_of_forwardWaits h
  have ht : s.takeFrameEvent.time.t = s.time.t := by rw [takeFrameEvent_time hw]
  have href : s.takeFrameEvent.count.ref = s.count.ref := congrArg Stable.ref (stable_takeFrameEvent s)
  have hl := takeFrameEvent_schedule hw
  obtain ⟨hnear, horder, hplaced⟩ := ho
  refine ⟨by rw [ht, href]; exact hnear, by rw [href, hl]; exact horder, fun x hx => ?_⟩
  unfold placed
  rw [ht, href]
  exact hplaced x (hl ▸ hx)

end
end State

/-- Settles O23: the next count makes the step and raises the event, and FORWARD_STEP takes it there; the resolutions after
it leave a list whose head, and so whose every entry, is ahead of T. -/
theorem forwardStepRaisesAFrameBoundary : Obligations.ForwardStepRaisesAFrameBoundary := by
  have hexec : ∀ s, exec .forwardStep s =
      answer (s.takeOrNext State.forwardWaits fun t => t.takeFrameEvent.resolveAll) := fun _ => rfl
  refine ⟨fun s o hr hw ho he => ?_, fun s h => ?_⟩
  · have hn := State.nextCount_forward_waits hr ho he
    refine ⟨State.nextCount_forward_time hr ho he, State.nextCount_step_sync hr ho, State.nextCount_forward_move hr ho he,
      hn, State.beginCount_schedule _ _ hr, State.beginCount_plan _ _ hr, ?_⟩
    rw [hexec, hexec, takeOrNext_next hw hn, takeOrNext_now hn]
  · have hw := State.boundaryWaits_of_forwardWaits h
    have ht : s.takeFrameEvent.resolveAll.settle.time =
        { s.time with len := s.takeFrameEvent.plan.record.frameLength, run := .opened, performed := 0 } := by
      rw [State.settle_time, State.resolveAll_time, State.takeFrameEvent_time hw]
    refine ⟨_, ?_, rfl, ?_, ?_, ?_, ?_, ?_, fun hc p => State.noted_of_heardSync fun hp => ?_, fun hl => ?_⟩
    · rw [hexec, takeOrNext_now h]; rfl
    · rw [ht]
    · rw [ht]
    · rw [ht]
    · rw [ht]
    · rw [State.settle_count, State.resolveAll_count, State.takeFrameEvent_raised hw]
    · exact State.heardSync_resolveAll (State.takeFrameEvent_forward_heard h (State.hearsSync_first hp hc))
    · rw [State.settle_time, State.resolveAll_time, State.settle_schedule]
      exact State.resolveAll_leaves_ahead (State.takeFrameEvent_forward_ordered h (State.ordered_of_listInOrder hl))

end Sys2Proof.Machine
end

section
/-! PROOFS. Placement (R21) and the counters that skip zero and the numbers in use (R19, R75, R116, R156). -/

namespace Sys2Proof.Machine

/-! ### Placement -/

/-- Placement splits the list at the entry: what stands before it is at or before its time, and in a list in order what
stands after it is later. -/
theorem place_split (ref : TimeCount) (x : Entry) (es : List Entry) : ∃ before after, es = before ++ after ∧
    place ref x es = before ++ x :: after ∧
    (∀ y ∈ before, forward ref y.effective ≤ forward ref x.effective) ∧
    (inOrder ref es → ∀ y ∈ after, forward ref x.effective < forward ref y.effective) := by
  induction es with
  | nil => exact ⟨[], [], rfl, rfl, nofun, fun _ => nofun⟩
  | cons y ys ih =>
    unfold place
    split
    · next hle =>
      obtain ⟨before, after, hys, hplace, hbefore, hafter⟩ := ih
      refine ⟨y :: before, after, by rw [hys]; rfl, by rw [hplace]; rfl, fun z hz => ?_, fun ho => ?_⟩
      · rcases List.mem_cons.mp hz with rfl | hz
        · exact hle
        · exact hbefore z hz
      · exact hafter (List.pairwise_cons.mp ho).2
    · next hlt =>
      refine ⟨[], y :: ys, rfl, rfl, nofun, fun ho z hz => ?_⟩
      rcases List.mem_cons.mp hz with rfl | hz
      · omega
      · exact Nat.lt_of_lt_of_le (by omega) ((List.pairwise_cons.mp ho).1 z hz)

/-- Settles O27: placement splits the list at the entry, and the list stays in order. -/
theorem placementKeepsTheListOrder : Obligations.PlacementKeepsTheListOrder := by
  intro ref x es
  obtain ⟨before, after, hes, hplace, hbefore, hafter⟩ := place_split ref x es
  exact ⟨before, after, hes, hplace, hbefore, fun ho => ⟨hafter ho, place_inOrder ref x ho⟩⟩

/-! ### Counters -/

section
variable {w : Nat} (used : List (BitVec w))

/-- A value that a counter passes over. -/
def passedOver (v : BitVec w) : Prop := v = 0 ∨ v ∈ used

/-- A counter that ends at a value to pass over has passed over every value on its way. -/
theorem nextNumber_passedOver (fuel : Nat) (v : BitVec w) (h : passedOver used (nextNumber used fuel v)) :
    ∀ i ≤ fuel, passedOver used (v + 1 + BitVec.ofNat w i) := by
  induction fuel generalizing v with
  | zero =>
    intro i hi
    rw [Nat.le_zero.mp hi, BitVec.ofNat_eq_ofNat, BitVec.add_zero]
    exact h
  | succ fuel ih =>
    unfold nextNumber at h
    split at h
    · next hv =>
      intro i hi
      cases i with
      | zero => rw [BitVec.ofNat_eq_ofNat, BitVec.add_zero]; exact hv
      | succ i =>
        have hsucc : BitVec.ofNat w i + 1 = BitVec.ofNat w (i + 1) := (BitVec.ofNat_add i 1).symm
        have hstep := ih (v + 1) h i (Nat.le_of_succ_le_succ hi)
        rwa [BitVec.add_assoc (v + 1), BitVec.add_comm 1, hsucc] at hstep
    · next hv => exact absurd h hv

/-- Values in a row, no more of them than the width has, are distinct. -/
theorem row_injective (a : BitVec w) {n : Nat} (hn : n ≤ 2 ^ w) :
    Set.InjOn (fun i => a + BitVec.ofNat w i) (Finset.range n) := by
  intro i hi j hj e
  have hi' : i < n := by simpa using hi
  have hj' : j < n := by simpa using hj
  have hij := congrArg BitVec.toNat ((BitVec.add_right_inj a).mp e)
  rwa [BitVec.toNat_ofNat, BitVec.toNat_ofNat, Nat.mod_eq_of_lt (by omega), Nat.mod_eq_of_lt (by omega)] at hij

/-- With a value left free, an assigned number is neither 0 nor in use: more values in a row than there are to pass over
are not all passed over. -/
theorem advanceCounter_fresh (v : BitVec w) (h : used.length + 1 < 2 ^ w) : ¬passedOver used (advanceCounter used v) := by
  intro hbad
  have hall := nextNumber_passedOver used (used.length + 1) v hbad
  have hsub : (Finset.range (used.length + 2)).image (fun i => v + 1 + BitVec.ofNat w i) ⊆ insert 0 used.toFinset := by
    intro y hy
    obtain ⟨i, hi, rfl⟩ := Finset.mem_image.mp hy
    rw [Finset.mem_insert, List.mem_toFinset]
    exact hall i (Nat.le_of_lt_succ (Finset.mem_range.mp hi))
  have hcard := Finset.card_le_card hsub
  rw [Finset.card_image_of_injOn (row_injective (v + 1) (by omega)), Finset.card_range] at hcard
  have hbound := (Finset.card_insert_le (0 : BitVec w) used.toFinset).trans
    (Nat.add_le_add_right (List.toFinset_card_le used) 1)
  omega

/-- A counter takes the next value where that is not passed over. -/
theorem advanceCounter_next (v : BitVec w) (h : ¬passedOver used (v + 1)) : advanceCounter used v = v + 1 := by
  unfold advanceCounter nextNumber
  exact if_neg h

end

/-- Settles O28: an assigned number is passed over only where every value is. -/
theorem countersSkipZeroAndNumbersInUse : Obligations.CountersSkipZeroAndNumbersInUse := by
  intro w used v h
  have hfresh := advanceCounter_fresh used v h
  exact ⟨fun e => hfresh (Or.inl e), fun e => hfresh (Or.inr e),
    fun h0 hu => advanceCounter_next used v fun hp => hp.elim h0 hu⟩

end Sys2Proof.Machine
end

section
/-! PROOFS. Resolutions at the head of the list (R33 to R36, R38, R39): the order they are made in, what each does, and the
commands that take a due action and a trailing edge. -/

namespace Sys2Proof.Machine

/-- Settles O13: nothing is taken at the end of the count, and what the count shows stands already. -/
theorem quietCountEndsUnchanged : Obligations.QuietCountEndsUnchanged := by
  intro s hs hraised hedge hchanges hahead
  have hresolve : s.resolveAll = s := State.resolveHeads_quiet _ _ hahead
  unfold State.endCount
  rw [State.takeFrameEvent_quiet hraised, hresolve, State.takeRefin_quiet hedge, State.takeChangesTo_quiet _ hchanges]
  exact hs

namespace State
variable {s : State}

/-! ### One resolution after another -/

/-- Fuel beyond what the list needs makes no difference. -/
theorem resolveHeads_fuel (go : State → Bool) (n m : Nat) (s : State) (hn : s.fuelNeeded ≤ n) (hm : s.fuelNeeded ≤ m) :
    resolveHeads go n s = resolveHeads go m s := by
  have empty : ∀ u : State, u.fuelNeeded ≤ 0 → u.schedule.entries = [] := fun u hu => by
    cases hl : u.schedule.entries with
    | nil => rfl
    | cons x rest =>
      have hx : 1 ≤ resolutionsLeft x := by unfold resolutionsLeft; split <;> omega
      rw [fuelNeeded, hl, List.map_cons, List.sum_cons] at hu
      omega
  induction n generalizing s m with
  | zero => rw [resolveHeads_nil go 0 (empty s hn), resolveHeads_nil go m (empty s hn)]
  | succ n ih =>
    cases m with
    | zero => rw [resolveHeads_nil go _ (empty s hm), resolveHeads_nil go 0 (empty s hm)]
    | succ m =>
      cases hl : s.schedule.entries with
      | nil => rw [resolveHeads_nil go _ hl, resolveHeads_nil go _ hl]
      | cons x rest =>
        have hlt := fuelNeeded_resolveOne x rest hl
        simp only [resolveHeads, hl]
        split
        · exact ih m (s.resolveOne x) (by omega) (by omega)
        · rfl

theorem resolveFuel_succ {x : Entry} {rest : List Entry} (h : s.schedule.entries = x :: rest) :
    ∃ n, s.resolveFuel = n + 1 :=
  ⟨2 * rest.length + 1, by rw [resolveFuel, h, List.length_cons]; omega⟩

/-- The resolutions of a count: that of the due head, and then those of the list it leaves (R33). -/
theorem resolveAll_due {x : Entry} {rest : List Entry} (h : s.schedule.entries = x :: rest) (hx : s.isDue x = true) :
    s.resolveAll = (s.resolveOne x).resolveAll := by
  obtain ⟨n, hn⟩ := resolveFuel_succ h
  have hle := s.fuelNeeded_le
  have hlt := fuelNeeded_resolveOne x rest h
  unfold resolveAll
  rw [hn, resolveHeads_due _ _ h hx rfl]
  exact resolveHeads_fuel _ _ _ _ (by omega) (s.resolveOne x).fuelNeeded_le

/-! ### The resolution of one entry -/

theorem resolveOne_forward {held : SyncState} {x : Entry} (hm : s.count.move = .forward held)
    (hx : x.effective ≠ s.time.t) : s.resolveOne x = s.resolveJumped held x := by
  simp only [resolveOne, hm, if_neg hx]

theorem resolveOne_due {x : Entry} (h : s.count.move.isForward = false ∨ x.effective = s.time.t) :
    s.resolveOne x = s.resolveDue x := by
  unfold resolveOne
  split
  · next held hm => exact if_pos (h.resolve_left (by rw [hm]; exact nofun))
  all_goals rfl

theorem start_outcome (st : Start) : st.outcome = if st = .onTime then .done else .late := by
  cases st <;> rfl

/-- A trailing edge is driven and its entry resolved, jumped or due (R36, R38). -/
theorem resolveOne_pulse {x : Entry} {g : Pulse} (h : x.pulse = some g) :
    s.resolveOne x = (s.trail x.line x.kind).resolve x (if g.start = .onTime then .done else .late) := by
  have hdue : s.resolveDue x = (s.trail x.line x.kind).resolve x g.start.outcome := by simp only [resolveDue, h]
  have hjumped : ∀ held, s.resolveJumped held x = (s.trail x.line x.kind).resolve x g.start.outcome := fun held => by
    simp only [resolveJumped, h]
  rw [← start_outcome]
  unfold resolveOne
  repeat' split
  · exact hdue
  · exact hjumped _
  all_goals exact hdue

theorem isPulse_level {kd : ActionKind} (h : kd = .set ∨ kd = .clear ∨ kd = .toggle) : kd.isPulse = false := by
  rcases h with rfl | rfl | rfl <;> rfl

theorem isPulse_pulse {kd : ActionKind} (h : kd = .pulseHigh ∨ kd = .pulseLow) : kd.isPulse = true := by
  rcases h with rfl | rfl <;> rfl

section
variable {x : Entry} (hp : x.pulse = none)
include hp

theorem resolveDue_unsynced (h : ¬heldAllows x.sync s.sync.state) : s.resolveDue x = s.resolve x .unsynced := by
  simp [resolveDue, hp, mt (heldPasses_iff _ _).mp h]

theorem resolveDue_level (h : heldAllows x.sync s.sync.state) (hk : x.kind.isPulse = false) :
    s.resolveDue x = (s.lead x.line x.kind).resolve x .done := by
  simp [resolveDue, hp, (heldPasses_iff _ _).mpr h, hk]

theorem resolveDue_pulse (h : heldAllows x.sync s.sync.state) (hk : x.kind.isPulse = true) : s.resolveDue x =
    (s.lead x.line x.kind).startPulse x ⟨x.due + x.width.zeroExtend 48, .onTime⟩ := by
  simp [resolveDue, hp, (heldPasses_iff _ _).mpr h, hk]

theorem resolveJumped_skip (held : SyncState) (hl : x.late = .skip) : s.resolveJumped held x = s.resolve x .skipped := by
  simp only [resolveJumped, hp, hl]

variable {held : SyncState} (hl : x.late = .runLate)
include hl

theorem resolveJumped_unsynced (h : ¬heldAllows x.sync held) : s.resolveJumped held x = s.resolve x .unsynced := by
  simp [resolveJumped, hp, hl, mt (heldPasses_iff _ _).mp h]

theorem resolveJumped_level (h : heldAllows x.sync held) (hk : x.kind.isPulse = false) :
    s.resolveJumped held x = (s.lead x.line x.kind).resolve x .late := by
  simp [resolveJumped, hp, hl, (heldPasses_iff _ _).mpr h, hk]

theorem resolveJumped_pulse (h : heldAllows x.sync held) (hk : x.kind.isPulse = true) : s.resolveJumped held x =
    (s.lead x.line x.kind).startPulse x ⟨s.time.t + x.width.zeroExtend 48, .late⟩ := by
  simp [resolveJumped, hp, hl, (heldPasses_iff _ _).mpr h, hk]

end
end State

/-- Settles O24: the resolutions by the head of the list, and each entry's by the table of R38 and the cases of R34 to R36. -/
theorem jumpedEntriesFollowTheirLatePolicy : Obligations.JumpedEntriesFollowTheirLatePolicy := by
  refine ⟨fun s h => ?_, fun s x rest hl hx => ?_, fun s x held hm hx => ?_, fun s x hdue => ?_⟩
  · cases hl : s.schedule.entries with
    | nil => exact State.resolveHeads_nil _ _ hl
    | cons x rest => exact State.resolveHeads_ahead _ _ hl (by simp [State.isDue, h x rest hl])
  · exact State.resolveAll_due hl (by simp [State.isDue, hx])
  · have hj := State.resolveOne_forward hm hx
    refine ⟨fun g hg => State.resolveOne_pulse hg, fun hp hs => ?_, fun hp hr hc h1 h2 => ?_, fun hp hr ha =>
      ⟨fun hk => ?_, fun hk => ?_⟩⟩
    · rw [hj, State.resolveJumped_skip hp held hs]
    · refine hj.trans (State.resolveJumped_unsynced hp hr ?_)
      rintro (h | h | h)
      · exact absurd (hc.symm.trans h) nofun
      · exact h1 h
      · exact h2 h
    · rw [hj, State.resolveJumped_level hp hr ha (State.isPulse_level hk)]
    · rw [hj, State.resolveJumped_pulse hp hr ha (State.isPulse_pulse hk)]
  · have hd := State.resolveOne_due hdue
    refine ⟨fun g hg => State.resolveOne_pulse hg, fun hp hn => ?_, fun hp ha => ⟨fun hk => ?_, fun hk => ?_⟩⟩
    · rw [hd, State.resolveDue_unsynced hp hn]
    · rw [hd, State.resolveDue_level hp ha (State.isPulse_level hk)]
    · rw [hd, State.resolveDue_pulse hp ha (State.isPulse_pulse hk)]

/-! ### The commands that take a due action and a trailing edge -/

namespace State
variable {s u : State}

theorem resolveHeads_stop (go : State → Bool) (n : Nat) (h : go s = false) : resolveHeads go n s = s := by
  cases n with
  | zero => rfl
  | succ n =>
    unfold resolveHeads
    split
    · rfl
    · simp [h]

/-- Where nothing after it is due, the resolution of a PENDING head leaves no PENDING entry due: it is gone, or IN_PULSE. -/
theorem pendingDue_resolveOne {x : Entry} {rest : List Entry} (h : s.schedule.entries = x :: rest)
    (hrest : ∀ y ∈ rest, ahead s.time.t y.effective = true) : (s.resolveOne x).pendingDue = false := by
  have none_due : ∀ y ∈ rest, (y.pulse.isNone && (s.resolveOne x).isDue y) = false := fun y hy => by
    simp [isDue, hrest y hy]
  unfold pendingDue
  rw [List.any_eq_false]
  rcases resolveOne_entries x rest h with e | ⟨_, g, _, e⟩ <;> rw [e] <;> intro y hy
  · simp [none_due y hy]
  · rcases List.mem_cons.mp ((place_perm _ _ _).mem_iff.mp hy) with rfl | hy
    · exact nofun
    · simp [none_due y hy]

/-- ACTION_DUE with one PENDING entry due, at the head (R33, log 14). -/
theorem exec_actionDue {x : Entry} {rest : List Entry} (h : s.schedule.entries = x :: rest) (hp : x.pulse = none)
    (hx : ahead s.time.t x.due = false) (hrest : ∀ y ∈ rest, ahead s.time.t y.effective = true) :
    exec .actionDue s = .next (s.resolveOne x).settle := by
  have hdue : s.isDue x = true := by rw [isDue, effective_pending hp, hx]; rfl
  have hgo : s.pendingDue = true := by
    rw [pendingDue, h, List.any_cons, hp, hdue]; rfl
  obtain ⟨n, hn⟩ := resolveFuel_succ h
  have hone : s.resolvePending = s.resolveOne x := by
    unfold resolvePending
    rw [hn, resolveHeads_due _ _ h hdue hgo, resolveHeads_stop _ _ (pendingDue_resolveOne h hrest)]
  show answer (s.takeOrNext pendingDue resolvePending) = _
  rw [takeOrNext_now hgo, hone]
  rfl

/-- PULSE_TRAILING_EDGE with an IN_PULSE entry due at the head (R33, R36, log 14). -/
theorem exec_pulseTrailingEdge {x : Entry} {rest : List Entry} {g : Pulse} (h : s.schedule.entries = x :: rest)
    (hp : x.pulse = some g) (hx : ahead s.time.t g.endTime = false) :
    exec .pulseTrailingEdge s = .next (s.resolveOne x).settle := by
  have hdue : s.isDue x = true := by rw [isDue, Entry.effective, hp, hx]; rfl
  have hgo : s.pulseDue = true := by
    rw [pulseDue, h, List.any_cons, hp, hdue]; rfl
  obtain ⟨n, hn⟩ := resolveFuel_succ h
  have hone : resolveToPulse s.resolveFuel s = s.resolveOne x := by
    rw [hn]
    simp [resolveToPulse, h, hdue, hp]
  show answer (s.takeOrNext pulseDue fun t => resolveToPulse t.resolveFuel t) = _
  rw [takeOrNext_now hgo, hone]
  rfl

/-! ### What a resolution shows at its line and the others -/

/-- A line that an operation leaves alone stays as it is when the state is settled again. -/
theorem settle_line_of (hs : s.settled) (ht : u.time = s.time) {k : LineId} (hk : u.line k = s.line k) :
    u.settle.line k = s.line k := by
  rw [settle_line, hk, ht, settled_line hs]

/-- The driven level of an OUTPUT_EVENT line stays when the state is settled. -/
theorem settle_line_driven {k : LineId} {l : Line} {v : Option Level} (hm : l.mode = .outputEvent)
    (hk : u.line k = l.drivenAt v) : u.settle.line k = l.drivenAt v := by
  rw [settle_line, hk, atPhase_idle _ (Or.inl (by show l.mode ≠ _; rw [hm]; exact nofun))]

@[simp] theorem resolve_line (s : State) (x : Entry) (out : Outcome) (k : LineId) : (s.resolve x out).line k = s.line k :=
  resolve_same (·.line k) (fun _ _ _ => rfl) (fun _ _ => rfl) s x out
@[simp] theorem startPulse_line (s : State) (x : Entry) (g : Pulse) (k : LineId) : (s.startPulse x g).line k = s.line k :=
  rfl

theorem lead_line_ne (s : State) (kd : ActionKind) {j k : LineId} (h : k ≠ j) : (s.lead j kd).line k = s.line k :=
  line_modLine_ne s _ (Ne.symm h)

theorem trail_line_ne (s : State) (kd : ActionKind) {j k : LineId} (h : k ≠ j) : (s.trail j kd).line k = s.line k := by
  unfold trail
  split
  · rfl
  · exact line_modLine_ne s _ (Ne.symm h)

/-- A resolution as due or as jumped reaches no line but its own. -/
theorem resolveOne_line_ne (s : State) (x : Entry) {k : LineId} (h : k ≠ x.line) : (s.resolveOne x).line k = s.line k := by
  unfold resolveOne resolveDue resolveJumped
  repeat' split
  all_goals simp only [resolve_line, startPulse_line, lead_line_ne s _ h, trail_line_ne s _ h]

theorem lead_line {k : LineId} (kd : ActionKind) (h : (s.line k).mode = .outputEvent) :
    (s.lead k kd).line k = (s.line k).drivenAt (s.leadingLevel k kd) := by
  rw [lead_event s k kd h, line_modLine_same]

theorem trail_line {k : LineId} {kd : ActionKind} (hk : kd = .pulseHigh ∨ kd = .pulseLow)
    (h : (s.line k).mode = .outputEvent) : (s.trail k kd).line k = (s.line k).drivenAt (trailingLevel kd) := by
  obtain ⟨v, hv⟩ : ∃ v, trailingLevel kd = some v := by rcases hk with rfl | rfl <;> exact ⟨_, rfl⟩
  rw [trail_event s k kd h hv, line_modLine_same, hv]

/-- A resolution as due or as jumped leaves the counter. -/
theorem resolveOne_counter (s : State) (x : Entry) : (s.resolveOne x).schedule.counter = s.schedule.counter :=
  resolveOne_same (·.schedule.counter) (fun _ _ _ => rfl) (fun _ _ _ => rfl) (fun _ _ => rfl) s x

theorem resolve_settle_entries {x : Entry} {rest : List Entry} (out : Outcome) (hu : u.schedule.entries = x :: rest) :
    (u.resolve x out).settle.schedule.entries = rest := by
  rw [settle_schedule, resolve_entries, hu]
  exact remove_head x rest

end State

/-- Settles O25: the head is resolved as due, and the resolution leaves no other PENDING entry to take. -/
theorem dueActionIsPerformedAndResolved : Obligations.DueActionIsPerformedAndResolved := by
  intro s x rest hs hl hp hx hrest hm
  have hdue : s.resolveOne x = s.resolveDue x := State.resolveOne_due (Or.inl hm)
  have hlead : (s.lead x.line x.kind).schedule.entries = x :: rest := hl
  refine ⟨_, State.exec_actionDue hl hp hx hrest, State.resolveOne_time s x, State.resolveOne_counter s x,
    fun k hk => State.settle_line_of hs (State.resolveOne_time s x) (State.resolveOne_line_ne s x hk), fun hn => ?_,
    fun ha hmode => ⟨?_, fun hk => ?_, fun hk => ?_⟩⟩
  · rw [hdue, State.resolveDue_unsynced hp hn]
    refine ⟨State.resolve_settle_entries _ hl, ?_, resolve_settle_queue s s hs x _ nofun rfl rfl rfl rfl rfl⟩
    exact State.settle_line_of hs (resolve_same (·.time) (fun _ _ _ => rfl) (fun _ _ => rfl) s x _) (by simp)
  · refine State.settle_line_driven hmode ?_
    rw [hdue]
    cases hk : x.kind.isPulse with
    | false => rw [State.resolveDue_level hp ha hk, State.resolve_line, State.lead_line _ hmode]
    | true => rw [State.resolveDue_pulse hp ha hk, State.startPulse_line, State.lead_line _ hmode]
  · rw [hdue, State.resolveDue_level hp ha (State.isPulse_level hk)]
    exact ⟨State.resolve_settle_entries _ hlead, resolve_settle_queue s _ hs x _ nofun rfl rfl rfl rfl rfl⟩
  · rw [hdue, State.resolveDue_pulse hp ha (State.isPulse_pulse hk)]
    refine ⟨?_, fun p => settle_queue_of s _ hs p rfl rfl rfl rfl⟩
    show place s.count.ref _ (removeNumber x.number s.schedule.entries) = _
    rw [hl, remove_head]

/-- Settles O26: the head is the first IN_PULSE entry to take, and its resolution is the same in every move. -/
theorem pulseTrailingEdgeIsDrivenAndResolved : Obligations.PulseTrailingEdgeIsDrivenAndResolved := by
  intro s x rest g hs hl hp hx hk hmode
  have htrail : (s.trail x.line x.kind).schedule = s.schedule := State.trail_schedule _ _ _
  obtain ⟨v, hv⟩ : ∃ v, trailingLevel x.kind = some v := by rcases hk with h | h <;> rw [h] <;> exact ⟨_, rfl⟩
  refine ⟨_, State.exec_pulseTrailingEdge hl hp hx, State.resolveOne_time s x, ?_, State.settle_line_driven hmode ?_,
    fun k hk => State.settle_line_of hs (State.resolveOne_time s x) (State.resolveOne_line_ne s x hk), ?_⟩
  · rw [State.resolveOne_pulse hp, State.settle_schedule, resolve_entries, htrail, hl, remove_head]
  · rw [State.resolveOne_pulse hp, State.resolve_line, State.trail_line hk hmode]
  · rw [State.resolveOne_pulse hp, State.trail_event s _ _ hmode hv]
    refine resolve_settle_queue s _ hs x _ ?_ rfl rfl rfl rfl rfl
    split <;> exact nofun

end Sys2Proof.Machine
end

section
/-! PROOFS. ACTION_POST (R24 to R30): the outcome of its checks, and what a post does that passes them. -/

namespace Sys2Proof.Machine
namespace State

/-! ### The checks (R24 to R26) -/

section
variable {s : State} {p : PortId} (id : Byte) {line : Byte} (kind : Byte) (width : Phase) (due : TimeCount)
  (late sync notify : Byte) (tag : BitVec 16)

theorem actionPost_notOwner (h : s.notOwned p line) :
    s.actionPost p id line kind width due late sync notify tag = s.answerPost p id .notOwner 0 := by
  unfold actionPost
  split
  · rfl
  · next k hk => exact if_pos (h k hk)

theorem actionPost_wrongMode {k : LineId} {m : Mode} (h : s.ownsIn p line k m) (hm : m ≠ .outputEvent) :
    s.actionPost p id line kind width due late sync notify tag = s.answerPost p id .wrongMode 0 := by
  obtain ⟨hk, ho, hmode⟩ := h
  simp [actionPost, hk, ho, hmode, hm]

variable {k : LineId} (h : s.ownsIn p line k .outputEvent)
include h

theorem actionPost_badValue (hf : postFieldsOf k kind width due late sync notify tag = none) :
    s.actionPost p id line kind width due late sync notify tag = s.answerPost p id .badValue 0 := by
  obtain ⟨hk, ho, hmode⟩ := h
  simp [actionPost, hk, ho, hmode, hf]

variable {f : PostFields} (hf : postFieldsOf k kind width due late sync notify tag = some f)
include hf

theorem actionPost_outOfHorizon (hw : withinHorizon s.time.t due = false) :
    s.actionPost p id line kind width due late sync notify tag = s.answerPost p id .outOfHorizon 0 := by
  obtain ⟨hk, ho, hmode⟩ := h
  simp [actionPost, hk, ho, hmode, hf, hw]

theorem actionPost_checked (hw : withinHorizon s.time.t due = true) :
    s.actionPost p id line kind width due late sync notify tag = s.postChecked p id f := by
  obtain ⟨hk, ho, hmode⟩ := h
  simp [actionPost, hk, ho, hmode, hf, hw]

end

section
variable {s : State} {p : PortId}

theorem roomCheck_quota (h : s.plan.record.portQuota.toNat ≤ s.entryCount p) : s.roomCheck p = some .quota := by
  simp [roomCheck, h]

theorem roomCheck_full (hq : s.entryCount p < s.plan.record.portQuota.toNat) (hc : 128 ≤ s.schedule.entries.length) :
    s.roomCheck p = some .scheduleFull := by
  simp [roomCheck, Nat.not_le.mpr hq, Config.scheduleCapacity, hc]

theorem roomCheck_none (hq : s.entryCount p < s.plan.record.portQuota.toNat) (hc : s.schedule.entries.length < 128) :
    s.roomCheck p = none := by
  simp [roomCheck, Nat.not_le.mpr hq, Config.scheduleCapacity, Nat.not_le.mpr hc]

variable (id : Byte) {f : PostFields}

/-- A post that needs an entry and finds no room, future or late (R26, R29). -/
theorem postChecked_noRoom {r : Result} (hr : s.roomCheck p = some r)
    (h : ahead s.time.t f.due = true ∨ f.late = .runLate ∧ f.kind.isPulse = true) :
    s.postChecked p id f = s.answerPost p id r 0 := by
  unfold postChecked
  split
  · simp [postFuture, hr]
  · next ha =>
    obtain ⟨hl, hk⟩ := h.resolve_left ha
    simp [postLatePulse, hl, hk, hr]

theorem postChecked_skip (ha : ahead s.time.t f.due = false) (hl : f.late = .skip) :
    s.postChecked p id f = s.answerPost p id .skipped 0 := by
  simp [postChecked, ha, hl]

end

/-! ### The posts that pass (R26, R28, R29) -/

/-- The state with another list, and the counter moved on past its numbers (R19). -/
def numbered (es : List Entry) (s : State) : State :=
  { s with schedule := ⟨es, advanceCounter (es.map (·.number)) s.schedule.counter⟩ }

theorem bumpActions_eq (s : State) : s.bumpActions = s.numbered s.schedule.entries := rfl

theorem setEntries_bumpActions (s : State) (es : List Entry) : (s.setEntries es).bumpActions = s.numbered es := rfl

section
variable {s : State} {p : PortId} (id : Byte) {f : PostFields}

theorem postChecked_future (ha : ahead s.time.t f.due = true) (hr : s.roomCheck p = none) : s.postChecked p id f =
    (s.numbered (place s.count.ref (f.entry p s.schedule.counter none) s.schedule.entries)).answerPost p id .ok
      s.schedule.counter := by
  simp [postChecked, ha, postFuture, hr, setEntries_bumpActions]

variable (ha : ahead s.time.t f.due = false) (hl : f.late = .runLate)
include ha hl

theorem postChecked_late (hk : f.kind.isPulse = false) :
    s.postChecked p id f = s.postLateAction p id f := by
  simp [postChecked, ha, hl, hk]

theorem postChecked_latePulse (hk : f.kind.isPulse = true) : s.postChecked p id f = s.postLatePulse p id f := by
  simp [postChecked, ha, hl, hk]

/-- A late post whose HELD check fails takes a number and performs nothing (R28, R29). -/
theorem postChecked_unsynced (hr : f.kind.isPulse = true → s.roomCheck p = none) (hn : ¬heldAllows f.sync s.sync.state) :
    s.postChecked p id f = (s.numbered s.schedule.entries).answerPost p id .unsynced s.schedule.counter := by
  have hheld := mt (heldPasses_iff _ _).mp hn
  cases hk : f.kind.isPulse with
  | false => rw [postChecked_late id ha hl hk, postLateAction, if_neg hheld, bumpActions_eq]
  | true => simp [postChecked_latePulse id ha hl hk, postLatePulse, hr hk, hheld, bumpActions_eq]

variable (hh : heldAllows f.sync s.sync.state) (hm : (s.line f.line).mode = .outputEvent)
include hh hm

theorem postChecked_lateAction (hk : f.kind.isPulse = false) : s.postChecked p id f =
    ((s.numbered s.schedule.entries).modLine f.line (Line.drivenAt (s.leadingLevel f.line f.kind))).answerPost p id .late
      s.schedule.counter := by
  have hlead := lead_event (s.numbered s.schedule.entries) f.line f.kind hm
  rw [postChecked_late id ha hl hk, postLateAction, if_pos ((heldPasses_iff _ _).mpr hh), bumpActions_eq, hlead]
  rfl

theorem postChecked_pulseStarts (hk : f.kind.isPulse = true) (hr : s.roomCheck p = none) : s.postChecked p id f =
    ((s.numbered (place s.count.ref
        (f.entry p s.schedule.counter (some ⟨s.time.t + f.width.zeroExtend 48, .late⟩))
          s.schedule.entries)).modLine f.line
      (Line.drivenAt (s.leadingLevel f.line f.kind))).answerPost p id .late s.schedule.counter := by
  rw [postChecked_latePulse id ha hl hk, postLatePulse, hr]
  dsimp only
  rw [if_pos ((heldPasses_iff _ _).mpr hh), lead_event s f.line f.kind hm]
  rfl

end
end State

/-! ### The request -/

/-- A request that changes the marked count to that of another state and is answered there. -/
theorem answer_take_effect {s u : State} {p : PortId} (h : s.serving p) (k i : Byte) (op : State → State) {r : Result}
    {b : Body} (hop : op (s.marked p) = (u.marked p).respond p k i r b) :
    answer ((s.linkCount p).take p k i true op) = .next (State.settle (u.answered p k i r b)) := by
  rw [answer_take_open h, hop, State.marked_respond]

section
variable {s : State} {p : PortId} (h : s.serving p) (id line kind : Byte) (width : Phase) (due : TimeCount)
  (late sync notify : Byte) (tag : BitVec 16)
include h

/-- A post that is answered and does nothing else. -/
theorem exec_actionPost_answer {r : Result} {n : BitVec 32}
    (hop : State.actionPost p id line kind width due late sync notify tag (s.marked p) = (s.marked p).answerPost p id r n) :
    exec (.actionPost p id line kind width due late sync notify tag) s =
      .next (s.answered p 0x20 id r (.post n s.time.t s.time.epoch)) :=
  answer_take_fixed h kindActionPost id _ hop rfl

/-- A post that changes the marked count to that of another state and is answered there. -/
theorem exec_actionPost_effect {r : Result} {n : BitVec 32} {u : State} (ht : u.time = s.time)
    (hop : State.actionPost p id line kind width due late sync notify tag (s.marked p) = (u.marked p).answerPost p id r n) :
    exec (.actionPost p id line kind width due late sync notify tag) s =
      .next (State.settle (State.answered p 0x20 id r (.post n s.time.t s.time.epoch) u)) := by
  rw [← ht]
  exact answer_take_effect h kindActionPost id _ hop

end

/-- Settles O29, check by check. -/
theorem actionPostIsRefusedByItsChecks : Obligations.ActionPostIsRefusedByItsChecks := by
  intro s p id line kind width due late sync notify tag r h hr
  refine exec_actionPost_answer h id line kind width due late sync notify tag ?_
  rcases hr with ⟨rfl, hn⟩ | ⟨rfl, k, m, ho, hm⟩ | ⟨⟨k, ho⟩, hr⟩
  · exact State.actionPost_notOwner (s := s.marked p) id _ _ _ _ _ _ _ hn
  · exact State.actionPost_wrongMode (s := s.marked p) id _ _ _ _ _ _ _ ho hm
  · rcases hr with ⟨rfl, hf⟩ | ⟨hf, hr⟩
    · exact State.actionPost_badValue (s := s.marked p) id _ _ _ _ _ _ _ ho (postFieldsOf_none k _ _ _ _ _ _ _ hf)
    · obtain ⟨kd, lp, sc, nt, hfields, hlate, hkind⟩ := postFieldsOf_some k kind width due late sync notify tag hf
      rcases hr with ⟨rfl, hout⟩ | ⟨hin, hneeds, hroom⟩
      · exact State.actionPost_outOfHorizon (s := s.marked p) id _ _ _ _ _ _ _ ho hfields
          (Bool.eq_false_iff.mpr fun e => (withinHorizon_iff _ _).mp e hout)
      · have hcheck : (s.marked p).roomCheck p = some r := by
          rcases hroom with ⟨rfl, hq⟩ | ⟨rfl, hq, hc⟩
          · exact State.roomCheck_quota hq
          · exact State.roomCheck_full hq hc
        rw [State.actionPost_checked (s := s.marked p) id _ _ _ _ _ _ _ ho hfields ((withinHorizon_iff _ _).mpr hin)]
        refine State.postChecked_noRoom id hcheck (hneeds.imp_right fun ⟨hl, hk⟩ => ⟨?_, hkind.mpr hk⟩)
        rw [hl] at hlate
        exact (Option.some.inj hlate).symm

/-- Settles O31: the late policy is looked at before quota, capacity and sync class. -/
theorem lateSkipPostIsAnsweredSkipped : Obligations.LateSkipPostIsAnsweredSkipped := by
  intro s p id line kind width due sync notify tag k h ho hf hb
  obtain ⟨kd, lp, sc, nt, hfields, hlate, _⟩ := postFieldsOf_some k kind width due 2 sync notify tag hf
  obtain ⟨hw, ha⟩ := late_of_behind hb
  refine exec_actionPost_answer h id line kind width due 2 sync notify tag ?_
  rw [State.actionPost_checked (s := s.marked p) id _ _ _ _ _ _ _ ho hfields hw]
  exact State.postChecked_skip id ha (Option.some.inj hlate).symm

theorem isPulse_iff (kd : ActionKind) : kd.isPulse = true ↔ kd = .pulseHigh ∨ kd = .pulseLow := by
  cases kd <;> decide

/-- Settles O30: the post is in horizon and ahead, and finds room. -/
theorem futureActionPostMakesAPendingEntry : Obligations.FutureActionPostMakesAPendingEntry := by
  intro s p id k kd width due lp sc nt tag es h ho hm hw h0 hd hq hc hes
  obtain ⟨hin, ha⟩ := future_of_ahead h0 hd
  have hfields := postFieldsOf_codes k kd width due lp sc nt tag hw
  refine exec_actionPost_effect h id (lineByte k) kd.code width due lp.code sc.code (flagByte nt) tag
    (u := s.numbered es) rfl ?_
  rw [State.actionPost_checked (s := s.marked p) id _ _ _ _ _ _ _ ⟨lineOf_lineByte k, ho, hm⟩ hfields hin,
    State.postChecked_future (s := s.marked p) id (f := ⟨k, kd, width, due, lp, sc, nt, tag⟩) ha (State.roomCheck_none hq hc),
      hes]
  rfl

/-- Settles O32: a late post with RUN_LATE by its HELD check and kind. -/
theorem lateRunPostActsAtOnce : Obligations.LateRunPostActsAtOnce := by
  intro s p id k kd width due sc nt tag h ho hm hw hb hroom
  obtain ⟨hin, ha⟩ := late_of_behind hb
  have hfields := postFieldsOf_codes k kd width due .runLate sc nt tag hw
  have hchecked := State.actionPost_checked (s := s.marked p) id _ _ _ _ _ _ _ ⟨lineOf_lineByte k, ho, hm⟩ hfields hin
  have hroom' : kd.isPulse = true → (s.marked p).roomCheck p = none := fun hk =>
    State.roomCheck_none (hroom ((isPulse_iff kd).mp hk)).1 (hroom ((isPulse_iff kd).mp hk)).2
  have effect : ∀ {r u}, u.time = s.time → (s.marked p).postChecked p id ⟨k, kd, width, due, .runLate, sc, nt, tag⟩ =
      (u.marked p).answerPost p id r s.schedule.counter →
      exec (.actionPost p id (lineByte k) kd.code width due 1 sc.code (flagByte nt) tag) s =
        .next (State.settle (State.answered p 0x20 id r (.post s.schedule.counter s.time.t s.time.epoch) u)) := fun ht e =>
    exec_actionPost_effect h id (lineByte k) kd.code width due 1 sc.code (flagByte nt) tag ht (hchecked.trans e)
  refine ⟨fun hn => effect (u := s.numbered s.schedule.entries) rfl ?_, fun hh h0 =>
    effect (u := (s.numbered s.schedule.entries).modLine k (Line.drivenAt (s.leadingLevel k kd))) rfl ?_,
    fun hh h0 es hes => effect (u := (s.numbered es).modLine k (Line.drivenAt (s.leadingLevel k kd))) rfl ?_⟩
  · exact State.postChecked_unsynced (s := s.marked p) id ha rfl hroom' hn
  · have hk : kd.isPulse = false := Bool.eq_false_iff.mpr fun hk => hw.mp ((isPulse_iff kd).mp hk) h0
    rw [State.postChecked_lateAction (s := s.marked p) id (f := ⟨k, kd, width, due, .runLate, sc, nt, tag⟩) ha rfl hh hm hk]
    cases kd <;> rfl
  · have hk : kd.isPulse = true := (isPulse_iff kd).mpr (hw.mpr h0)
    rw [State.postChecked_pulseStarts (s := s.marked p) id (f := ⟨k, kd, width, due, .runLate, sc, nt, tag⟩) ha rfl hh hm
      hk (hroom' hk), hes]
    cases kd <;> rfl

end Sys2Proof.Machine
end

section
/-! PROOFS. LINE_CLAIM (R48, R53). -/

namespace Sys2Proof.Machine
namespace State

section
variable {s : State} (p : PortId) (id : Byte) {k : LineId}

theorem lineClaim_high {line : Byte} (h : 16 ≤ line.toNat) :
    s.lineClaim p id line = s.answerClaim p id line .badValue none 0 := by
  simp only [lineClaim, lineOf_high h]

theorem lineClaim_free (ho : (s.line k).owner = none) (hr : (s.line k).retain = false) : s.lineClaim p id (lineByte k) =
    (s.modLine k fun l => { l with owner := some p }).answerClaim p id (lineByte k) .ok (some .claimed) 0 := by
  simp [lineClaim, lineOf_lineByte, ho, hr]

theorem lineClaim_retained (ho : (s.line k).owner = none) (hr : (s.line k).retain = true) : s.lineClaim p id (lineByte k) =
    ((s.modLine k fun l => { l with owner := some p }).adopt k p).answerClaim p id (lineByte k) .ok (some .adopted)
      (s.orphansOn k) := by
  simp [lineClaim, lineOf_lineByte, ho, hr]

theorem lineClaim_own (ho : (s.line k).owner = some p) :
    s.lineClaim p id (lineByte k) = s.answerClaim p id (lineByte k) .ok (some .alreadyOwned) 0 := by
  simp [lineClaim, lineOf_lineByte, ho]

theorem lineClaim_held {q : PortId} (ho : (s.line k).owner = some q) (hq : q ≠ p) :
    s.lineClaim p id (lineByte k) = s.answerClaim p id (lineByte k) .heldByOther none 0 := by
  simp [lineClaim, lineOf_lineByte, ho, hq]

end
end State

/-- Settles O35, by the owner and the retain flag of the line. -/
theorem lineClaimFollowsTheLineCondition : Obligations.LineClaimFollowsTheLineCondition := by
  intro s p id h
  refine ⟨fun line hl => ?_, fun k => ⟨fun ho hr => ?_, fun ho hr => ?_, fun ho => ?_, fun q ho hq => ?_⟩⟩
  · exact answer_take_fixed h kindLineClaim id _ (State.lineClaim_high (s := s.marked p) p id hl) rfl
  · exact answer_take_effect h kindLineClaim id _ (u := s.modLine k fun l => { l with owner := some p })
      (State.lineClaim_free (s := s.marked p) p id ho hr)
  · exact answer_take_effect h kindLineClaim id _ (u := (s.modLine k fun l => { l with owner := some p }).adopt k p)
      (State.lineClaim_retained (s := s.marked p) p id ho hr)
  · exact answer_take_fixed h kindLineClaim id _ (State.lineClaim_own (s := s.marked p) p id ho) rfl
  · exact answer_take_fixed h kindLineClaim id _ (State.lineClaim_held (s := s.marked p) p id ho hq) rfl

end Sys2Proof.Machine
end

section
/-! PROOFS. ACTION_CANCEL (R41, R42, R45): the refusals, and what the cancelled entries leave at the list, the lines and the
queues. -/

namespace Sys2Proof.Machine

/-! ### The list without the selected entries -/

/-- With distinct numbers, one entry at most carries a number. -/
theorem removeNumber_eq_filter {es : List Entry} (hd : (es.map (·.number)).Nodup) (n : BitVec 32) :
    removeNumber n es = es.filter fun y => decide (y.number ≠ n) := by
  induction es with
  | nil => rfl
  | cons y ys ih =>
    rw [List.map_cons, List.nodup_cons] at hd
    by_cases e : y.number = n
    · have hall : ∀ z ∈ ys, decide (z.number ≠ n) = true := fun z hz =>
        decide_eq_true fun ez => hd.1 (e ▸ ez ▸ List.mem_map_of_mem hz)
      rw [List.filter_cons_of_neg (by simp [e]), List.filter_eq_self.mpr hall]
      simp [removeNumber, e]
    · rw [List.filter_cons_of_pos (by simpa using e), ← ih hd.2]
      simp [removeNumber, e]

/-- The entries with the numbers of a list removed one after another. -/
theorem foldl_removeNumber {es : List Entry} (hd : (es.map (·.number)).Nodup) (l : List Entry) :
    l.foldl (fun es x => removeNumber x.number es) es = es.filter fun y => decide (y.number ∉ l.map (·.number)) := by
  induction l generalizing es with
  | nil => exact (List.filter_eq_self.mpr fun _ _ => by simp).symm
  | cons x xs ih =>
    rw [List.foldl_cons, removeNumber_eq_filter hd, ih (hd.sublist (List.filter_sublist.map _)), List.filter_filter]
    refine List.filter_congr fun y _ => ?_
    simp only [List.map_cons, List.mem_cons, not_or, ne_eq, Bool.decide_and]
    exact Bool.and_comm _ _

/-- With distinct numbers, an entry is among those a test selects exactly when the test selects its number. -/
theorem eq_of_number {es : List Entry} (hd : (es.map (·.number)).Nodup) {x y : Entry} (hx : x ∈ es) (hy : y ∈ es)
    (e : x.number = y.number) : x = y := List.inj_on_of_nodup_map hd hx hy e

theorem foldl_removeNumber_filter {es : List Entry} (hd : (es.map (·.number)).Nodup) (chosen : Entry → Bool) :
    (es.filter chosen).foldl (fun es x => removeNumber x.number es) es = es.filter fun y => !chosen y := by
  rw [foldl_removeNumber hd]
  refine List.filter_congr fun y hy => ?_
  have hmem : y.number ∈ (es.filter chosen).map (·.number) ↔ chosen y = true := by
    rw [List.mem_map]
    constructor
    · rintro ⟨x, hx, e⟩
      rw [List.mem_filter] at hx
      rw [← eq_of_number hd hx.1 hy e]
      exact hx.2
    · exact fun hc => ⟨y, List.mem_filter.mpr ⟨hy, hc⟩, rfl⟩
  cases hc : chosen y <;> simp [hmem, hc]

/-! ### Notifications that the end of the count does not change -/

/-- A post of another kind than SYNC_CHANGE leaves a queue's entries as the end of the count shows them. -/
theorem accept_refreshed {s : State} (stamp : Nat) {b : NoteBody} (hb : b.kind ≠ .syncChange) {q : NoteQueue}
    (h : ∀ n ∈ q.entries, n.refresh s = n) : ∀ n ∈ (q.accept stamp b).entries, n.refresh s = n := by
  have hnew : ∀ n : Note, n.body = b → n.refresh s = n := fun n hn => by
    rw [Note.refresh, if_neg fun hc => hb (hn ▸ hc.2)]
  unfold NoteQueue.accept
  repeat' split
  · intro n hn
    obtain ⟨m, hm, rfl⟩ := List.mem_map.mp hn
    split
    · exact hnew _ rfl
    · exact h m hm
  · intro n hn
    rcases List.mem_append.mp hn with hn | hn
    · exact h n hn
    · exact hnew n (by rw [List.mem_singleton.mp hn])
  · exact h

theorem post_refreshed {s u : State} (p q : PortId) {b : NoteBody} (hb : b.kind ≠ .syncChange)
    (h : ∀ n ∈ (u.queue p).entries, n.refresh s = n) : ∀ n ∈ ((u.post q b).queue p).entries, n.refresh s = n := by
  rcases post_cases u q b with e | e <;> rw [e]
  · exact h
  · rw [State.queue_modQueue]
    split
    · next hq => subst hq; exact accept_refreshed _ hb h
    · exact h

namespace State

/-! ### One entry cancelled -/

theorem cancelOne_same {α : Type} (g : State → α) (hq : ∀ (s : State) p f, g (s.modQueue p f) = g s)
    (hl : ∀ (s : State) k f, g (s.modLine k f) = g s) (he : ∀ (s : State) es, g (s.setEntries es) = g s) (s : State)
    (x : Entry) : g (s.cancelOne x) = g s := by
  unfold cancelOne
  rw [resolve_same g hq he]
  unfold trail
  repeat' split
  · rfl
  · exact hl _ _ _
  · rfl

theorem cancelOne_schedule (s : State) (x : Entry) : (s.cancelOne x).schedule =
    { s.schedule with entries := removeNumber x.number s.schedule.entries } := by
  unfold cancelOne
  rw [resolve_entries]
  split <;> simp only [trail_schedule]

/-- A cancelled entry hands the trailing level of its line where it is IN_PULSE (R42). -/
theorem cancelOne_line (s : State) (x : Entry) (k : LineId) : (s.cancelOne x).line k = (s.line k).trailed k x := by
  have htrailing : trailingLevel x.kind = x.kind.trailing := by cases x.kind <;> rfl
  unfold cancelOne Line.trailed
  rw [resolve_line, htrailing]
  by_cases hk : x.line = k
  · subst hk
    cases hp : x.pulse.isSome with
    | false => simp
    | true =>
      unfold trail
      cases x.kind.trailing with
      | none => simp
      | some v =>
        have hand : (s.handLevel x.line v).line x.line =
            if (s.line x.line).mode = .outputEvent then (s.line x.line).drivenAt (some v) else s.line x.line :=
          line_modLine_same _ _ _
        simp [hand]
  · simp only [hk, false_and, if_false]
    split
    · exact trail_line_ne s _ (Ne.symm hk)
    · rfl

/-- The ACTION_RESULT of a cancelled entry. -/
def cancelResult (s : State) (x : Entry) : NoteBody :=
  .actionResult x.number x.tag x.line .cancelled s.time.t s.time.epoch

theorem cancelOne_queue {s : State} {p : PortId} {x : Entry} (ho : x.owner = some p) (q : PortId) :
    (s.cancelOne x).queue q = if x.notify = true then (s.post p (s.cancelResult x)).queue q else s.queue q := by
  have hsame : ∀ u : State, u.notes = s.notes → u.ports = s.ports → u.count = s.count → u.time = s.time →
      (u.resolve x .cancelled).queue q =
        if x.notify = true then (s.post p (s.cancelResult x)).queue q else s.queue q := fun u hn hp hc ht => by
    have hq : u.queue q = s.queue q := by simp only [queue, hn]
    unfold resolve
    rw [report_queue _ x .cancelled nofun, ho]
    by_cases e : p = q
    · subst e
      simp only [and_true]
      split
      · have hbody : NoteBody.actionResult x.number x.tag x.line .cancelled u.time.t u.time.epoch = s.cancelResult x := by
          rw [ht]; rfl
        rw [setEntries_time, hbody]
        exact post_queue_congr _ _ _ _ (by simp only [isOpen, port, setEntries_ports, hp]) hq
          (congrArg Count.serial hc)
      · exact hq
    · rw [if_neg fun hc => e (Option.some.inj hc.2), post_queue_ne _ _ e, ite_self]
      exact hq
  unfold cancelOne
  split
  · unfold trail
    split
    · exact hsame s rfl rfl rfl rfl
    · exact hsame _ rfl rfl rfl rfl
  · exact hsame s rfl rfl rfl rfl

/-! ### The selected entries cancelled one after another -/

theorem cancelAll_same {α : Type} (g : State → α) (hq : ∀ (s : State) p f, g (s.modQueue p f) = g s)
    (hl : ∀ (s : State) k f, g (s.modLine k f) = g s) (he : ∀ (s : State) es, g (s.setEntries es) = g s)
    (l : List Entry) (s : State) : g (l.foldl cancelOne s) = g s := by
  induction l generalizing s with
  | nil => rfl
  | cons x xs ih => exact (ih _).trans (cancelOne_same g hq hl he s x)

theorem foldl_cancelOne_schedule (l : List Entry) (s : State) : (l.foldl cancelOne s).schedule =
    { s.schedule with entries := l.foldl (fun es x => removeNumber x.number es) s.schedule.entries } := by
  induction l generalizing s with
  | nil => rfl
  | cons x xs ih => rw [List.foldl_cons, ih, cancelOne_schedule]; rfl

theorem foldl_cancelOne_line (l : List Entry) (s : State) (k : LineId) :
    (l.foldl cancelOne s).line k = l.foldl (Line.trailed k) (s.line k) := by
  induction l generalizing s with
  | nil => rfl
  | cons x xs ih => rw [List.foldl_cons, ih, cancelOne_line]; rfl

/-- Two states in which posts to a port leave the same queue. -/
structure SameQueue (p : PortId) (a b : State) : Prop where
  isOpen : a.isOpen p = b.isOpen p
  queue : a.queue p = b.queue p
  serial : a.count.serial = b.count.serial

theorem SameQueue.post {p : PortId} {a b : State} (h : SameQueue p a b) (x : NoteBody) :
    SameQueue p (a.post p x) (b.post p x) :=
  ⟨by rw [post_isOpen, post_isOpen]; exact h.isOpen, post_queue_congr a b p x h.isOpen h.queue h.serial,
    by rw [post_count, post_count]; exact h.serial⟩

/-- The posts of the entries cancelled, in list order (R42, R45). -/
def cancelResults (s : State) (l : List Entry) : List NoteBody := (l.filter (·.notify)).map s.cancelResult

theorem foldl_cancelOne_queue {p : PortId} (l : List Entry) (ho : ∀ x ∈ l, x.owner = some p) {s u : State}
    (h : SameQueue p s u) : (l.foldl cancelOne s).queue p = u.queueAfter p (s.cancelResults l) := by
  induction l generalizing s u with
  | nil => exact h.queue
  | cons x xs ih =>
    have hx := ho x List.mem_cons_self
    have ht : ∀ y, (s.cancelOne x).cancelResult y = s.cancelResult y := fun y => by
      unfold cancelResult
      rw [cancelOne_same (·.time) (fun _ _ _ => rfl) (fun _ _ _ => rfl) (fun _ _ => rfl)]
    have hopen : (s.cancelOne x).isOpen p = s.isOpen p :=
      cancelOne_same (·.isOpen p) (fun _ _ _ => rfl) (fun _ _ _ => rfl) (fun _ _ => rfl) s x
    have hserial : (s.cancelOne x).count.serial = s.count.serial :=
      cancelOne_same (·.count.serial) (fun _ _ _ => rfl) (fun _ _ _ => rfl) (fun _ _ => rfl) s x
    have hstep : SameQueue p (s.cancelOne x) (if x.notify = true then u.post p (s.cancelResult x) else u) := by
      have hq := cancelOne_queue (s := s) hx p
      split
      · next hn =>
        rw [if_pos hn] at hq
        have hpost := h.post (s.cancelResult x)
        exact ⟨by rw [hopen, ← post_isOpen s p p (s.cancelResult x)]; exact hpost.isOpen, hq.trans hpost.queue,
          by rw [hserial, ← post_count s p (s.cancelResult x)]; exact hpost.serial⟩
      · next hn =>
        rw [if_neg hn] at hq
        exact ⟨hopen.trans h.isOpen, hq.trans h.queue, hserial.trans h.serial⟩
    have hrest : (s.cancelOne x).cancelResults xs = s.cancelResults xs := List.map_congr_left fun y _ => ht y
    rw [List.foldl_cons, ih (fun y hy => ho y (List.mem_cons_of_mem x hy)) hstep, hrest]
    unfold cancelResults queueAfter
    cases hn : x.notify <;> simp [hn]

theorem foldl_cancelOne_queue_ne {p q : PortId} (hq : q ≠ p) (l : List Entry) (ho : ∀ x ∈ l, x.owner = some p)
    (s : State) :
    (l.foldl cancelOne s).queue q = s.queue q := by
  induction l generalizing s with
  | nil => rfl
  | cons x xs ih =>
    rw [List.foldl_cons, ih (fun y hy => ho y (List.mem_cons_of_mem x hy)),
      cancelOne_queue (ho x List.mem_cons_self), post_queue_ne _ _ (Ne.symm hq), ite_self]

/-- ACTION_RESULTs posted to a settled state stay as they are when it is settled again. -/
theorem queueAfter_refreshed {s : State} (hs : s.settled) (p : PortId) (u : State) (l : List Entry) :
    ∀ n ∈ (s.queueAfter p (u.cancelResults l)).entries, n.refresh s = n := by
  have posted : ∀ (bs : List NoteBody) (v : State), (∀ b ∈ bs, b.kind ≠ .syncChange) →
      (∀ n ∈ (v.queue p).entries, n.refresh s = n) → ∀ n ∈ (v.queueAfter p bs).entries, n.refresh s = n := fun bs => by
    induction bs with
    | nil => exact fun v _ hv => hv
    | cons b bs ih =>
      exact fun v hb hv => ih (v.post p b) (fun c hc => hb c (List.mem_cons_of_mem b hc))
        (post_refreshed p p (hb b List.mem_cons_self) hv)
  refine posted _ s (fun b hb => ?_) (settled_note hs p)
  obtain ⟨x, _, rfl⟩ := List.mem_map.mp hb
  exact nofun

/-- The trailing levels of OUTPUT_EVENT lines stay as they are when a line is settled. -/
theorem foldl_trailed_atPhase (ph : Phase) (k : LineId) (l : List Entry) {x : Line} (h : x.atPhase ph = x) :
    (l.foldl (Line.trailed k) x).atPhase ph = l.foldl (Line.trailed k) x := by
  induction l generalizing x with
  | nil => exact h
  | cons e es ih =>
    refine ih ?_
    unfold Line.trailed
    split
    · next hc => exact atPhase_idle ph (Or.inl (by show x.mode ≠ _; rw [hc.2.2.1]; exact nofun))
    · exact h

/-! ### The request as the schedule takes it (R41) -/

section
variable {s : State} (p : PortId) (id : Byte) {arg : BitVec 32}

theorem actionCancel_noSelector {sel : Byte} (h1 : sel ≠ 1) (h2 : sel ≠ 2) (h3 : sel ≠ 3) :
    s.actionCancel p id sel arg = s.answerCancel p id .badValue 0 := by
  unfold actionCancel
  rw [if_neg h1, if_neg h2, if_neg h3]

theorem actionCancel_noTag (h : arg.extractLsb' 0 16 = 0) :
    s.actionCancel p id 2 arg = s.answerCancel p id .badValue 0 := by
  simp [actionCancel, h]

theorem actionCancel_noLine (h : 16 ≤ (arg.extractLsb' 0 8).toNat) :
    s.actionCancel p id 3 arg = s.answerCancel p id .badValue 0 := by
  simp [actionCancel, lineOf_high h]

theorem actionCancel_unknown (h : ∀ x ∈ s.schedule.entries, x.number ≠ arg) :
    s.actionCancel p id 1 arg = s.answerCancel p id .unknown 0 := by
  simp [actionCancel, find_number_none h]

theorem actionCancel_notOwner (hx : ∃ x ∈ s.schedule.entries, x.number = arg)
    (h : ∀ x ∈ s.schedule.entries, x.number = arg → x.owner ≠ some p) :
    s.actionCancel p id 1 arg = s.answerCancel p id .notOwner 0 := by
  obtain ⟨x, hx, hn⟩ := hx
  obtain ⟨y, hy⟩ : ∃ y, s.schedule.entries.find? (fun y => decide (y.number = arg)) = some y :=
    Option.isSome_iff_exists.mp (List.find?_isSome.mpr ⟨x, hx, by simpa using hn⟩)
  have howner := h y (List.mem_of_find?_eq_some hy) (by simpa using List.find?_some hy)
  simp [actionCancel, hy, howner]

theorem actionCancel_one (hd : (s.schedule.entries.map (·.number)).Nodup)
    (hx : ∃ x ∈ s.schedule.entries, x.number = arg ∧ x.owner = some p) :
    s.actionCancel p id 1 arg = s.cancelAll p id fun y => decide (y.number = arg) := by
  obtain ⟨x, hx, rfl, ho⟩ := hx
  simp [actionCancel, find_number hd hx, ho]

theorem actionCancel_tag (h : arg.extractLsb' 0 16 ≠ 0) : s.actionCancel p id 2 arg =
    s.cancelAll p id fun y => decide (y.owner = some p ∧ y.tag = arg.extractLsb' 0 16) := by
  unfold actionCancel
  rw [if_neg (by decide), if_pos rfl]
  exact if_neg h

theorem actionCancel_line {k : LineId} (h : arg.extractLsb' 0 8 = lineByte k) : s.actionCancel p id 3 arg =
    s.cancelAll p id fun y => decide (y.owner = some p ∧ y.line = k) := by
  simp [actionCancel, h, lineOf_lineByte]

end
end State

/-- A cancel that selects entries of its port. -/
theorem exec_cancelAll {s : State} {p : PortId} (h : s.serving p) (hd : (s.schedule.entries.map (·.number)).Nodup)
    {id sel : Byte} {arg : BitVec 32} {chosen : Entry → Bool}
    (hop : (s.marked p).actionCancel p id sel arg = (s.marked p).cancelAll p id chosen)
    (ho : ∀ x ∈ s.schedule.entries, chosen x = true → x.owner = some p) :
    ∃ t rs, exec (.actionCancel p id sel arg) s = .next t ∧ t.time = s.time ∧
      t.schedule = { s.schedule with entries := s.schedule.entries.filter fun y => !chosen y } ∧
      (∀ k, t.line k = (s.schedule.entries.filter chosen).foldl (Line.trailed k) (s.line k)) ∧
      t.queue p = s.queueAfter p (s.cancelResults (s.schedule.entries.filter chosen)) ∧
      (∀ q, q ≠ p → t.queue q = s.queue q) ∧
      (t.port p).responses =
        rs ++ [⟨0x21, id, .ok, .cancel (s.schedule.entries.filter chosen).length, s.count.serial⟩] := by
  have howner : ∀ x ∈ s.schedule.entries.filter chosen, x.owner = some p := fun x hx =>
    ho x (List.mem_filter.mp hx).1 (List.mem_filter.mp hx).2
  generalize hl : s.schedule.entries.filter chosen = l at howner ⊢
  have hu : (s.marked p).cancelAll p id chosen =
      (l.foldl State.cancelOne (s.marked p)).answerCancel p id .ok l.length := by rw [← hl]; rfl
  generalize hv : (s.marked p).cancelAll p id chosen = v at hop hu
  have same : ∀ {α : Type} (g : State → α), (∀ (s : State) p f, g (s.modQueue p f) = g s) →
      (∀ (s : State) k f, g (s.modLine k f) = g s) → (∀ (s : State) es, g (s.setEntries es) = g s) →
      (∀ (s : State) p f, g (s.modPort p f) = g s) → g v = g s := fun g hq hl' he hp => by
    have hanswer : ∀ u r n, g (State.answerCancel p id r n u) = g u := fun u r n => by
      unfold State.answerCancel State.respond; exact hp u p _
    rw [hu, hanswer, State.cancelAll_same g hq hl' he]
    exact hp s p _
  have htime : v.time = s.time := same (·.time) (fun _ _ _ => rfl) (fun _ _ _ => rfl) (fun _ _ => rfl) fun _ _ _ => rfl
  have hsync : v.sync = s.sync := same (·.sync) (fun _ _ _ => rfl) (fun _ _ _ => rfl) (fun _ _ => rfl) fun _ _ _ => rfl
  have hserial : v.count.serial = s.count.serial :=
    same (·.count.serial) (fun _ _ _ => rfl) (fun _ _ _ => rfl) (fun _ _ => rfl) fun _ _ _ => rfl
  have hrefresh : ∀ n : Note, n.refresh v = n.refresh s := fun n => by
    simp only [Note.refresh, State.syncBody, hserial, hsync, htime]
  have hline : ∀ k, v.line k = l.foldl (Line.trailed k) (s.line k) := fun k => by
    rw [hu]; exact State.foldl_cancelOne_line l (s.marked p) k
  have hqueue : v.queue p = s.queueAfter p (s.cancelResults l) := by
    rw [hu]
    exact State.foldl_cancelOne_queue l howner ⟨State.marked_isOpen s p p, rfl, rfl⟩
  refine ⟨v.settle, ((l.foldl State.cancelOne (s.marked p)).port p).responses.map (Response.refresh v p), ?_, htime, ?_,
    fun k => ?_, ?_,
    fun q hq => ?_, ?_⟩
  · show answer ((s.linkCount p).take p kindActionCancel id true _) = _
    rw [answer_take_open h, hop]
  · rw [State.settle_schedule, hu]
    refine (State.foldl_cancelOne_schedule l (s.marked p)).trans ?_
    rw [← hl, State.marked_schedule, foldl_removeNumber_filter hd]
  · rw [State.settle_line, hline, htime]
    exact State.foldl_trailed_atPhase _ k l (State.settled_line h.2.2 k)
  · rw [settle_queue_eq, hqueue]
    have : (s.queueAfter p (s.cancelResults l)).entries.map (Note.refresh v) = (s.queueAfter p (s.cancelResults l)).entries :=
      (List.map_congr_left fun n hn => (hrefresh n).trans (State.queueAfter_refreshed h.2.2 p s l n hn)).trans (List.map_id _)
    rw [this]
  · refine settle_queue_of s v h.2.2 q ?_ hserial hsync htime
    rw [hu]
    exact State.foldl_cancelOne_queue_ne hq l howner _
  · have hport : v.port p = { (l.foldl State.cancelOne (s.marked p)).port p with
        responses := ((l.foldl State.cancelOne (s.marked p)).port p).responses ++
          [⟨kindActionCancel, id, .ok, .cancel l.length, (l.foldl State.cancelOne (s.marked p)).count.serial⟩] } := by
      rw [hu]; exact State.port_modPort_same _ _ _
    have hstamp : (l.foldl State.cancelOne (s.marked p)).count.serial = s.count.serial :=
      State.cancelAll_same (·.count.serial) (fun _ _ _ => rfl) (fun _ _ _ => rfl) (fun _ _ => rfl) l (s.marked p)
    have hanswer : Response.refresh v p ⟨kindActionCancel, id, .ok, .cancel l.length, s.count.serial⟩ =
        ⟨kindActionCancel, id, .ok, .cancel l.length, s.count.serial⟩ := by
      unfold Response.refresh
      split <;> rfl
    rw [State.settle_port_eq, hport, hstamp, refreshPort]
    simp only [List.map_append, List.map_cons, List.map_nil, hanswer]
    rfl

/-- With distinct numbers, a number that stands in the list selects one entry. -/
theorem filter_number_length {es : List Entry} (hd : (es.map (·.number)).Nodup) {n : BitVec 32}
    (h : ∃ x ∈ es, x.number = n) : (es.filter fun y => decide (y.number = n)).length = 1 := by
  obtain ⟨x, hx, rfl⟩ := h
  have hone := List.count_eq_one_of_mem hd (List.mem_map_of_mem (f := (·.number)) hx)
  rw [List.count, List.countP_map, List.countP_eq_length_filter] at hone
  exact hone

/-- Settles O33: the refusals check by check, and the three selectors by the entries they select. -/
theorem actionCancelRemovesTheSelectedEntries : Obligations.ActionCancelRemovesTheSelectedEntries := by
  intro s p id arg h
  refine ⟨fun sel r hr => ?_, fun hd sel chosen hsel => ?_⟩
  · refine answer_take_fixed h kindActionCancel id (State.actionCancel p id sel arg) ?_ rfl
    rcases hr with ⟨rfl, h1, h2, h3⟩ | ⟨rfl, rfl, htag⟩ | ⟨rfl, rfl, hline⟩ | ⟨rfl, rfl, hnone⟩ | ⟨rfl, rfl, hx, ho⟩
    · exact State.actionCancel_noSelector p id h1 h2 h3
    · exact State.actionCancel_noTag p id htag
    · exact State.actionCancel_noLine p id hline
    · exact State.actionCancel_unknown (s := s.marked p) p id hnone
    · exact State.actionCancel_notOwner (s := s.marked p) p id hx ho
  · obtain ⟨hop, ho, hone⟩ : (s.marked p).actionCancel p id sel arg = (s.marked p).cancelAll p id chosen ∧
        (∀ x ∈ s.schedule.entries, chosen x = true → x.owner = some p) ∧
        (sel = 1 → (s.schedule.entries.filter chosen).length = 1) := by
      rcases hsel with ⟨rfl, hx, rfl⟩ | ⟨rfl, htag, rfl⟩ | ⟨k, rfl, hline, rfl⟩
      · refine ⟨State.actionCancel_one (s := s.marked p) p id hd hx, fun y hy hc => ?_, fun _ => ?_⟩
        · obtain ⟨x, hx, hn, ho⟩ := hx
          rw [← eq_of_number hd hx hy (hn.trans (of_decide_eq_true hc).symm)]
          exact ho
        · exact filter_number_length hd (hx.imp fun x hx => ⟨hx.1, hx.2.1⟩)
      · exact ⟨State.actionCancel_tag p id htag, fun y _ hc => (of_decide_eq_true hc).1, nofun⟩
      · exact ⟨State.actionCancel_line p id hline, fun y _ hc => (of_decide_eq_true hc).1, nofun⟩
    obtain ⟨t, rs, he, ht, hsch, hl, hq, hqs, hr⟩ := exec_cancelAll h hd hop ho
    exact ⟨t, rs, he, ht, hsch, hl, hq, hqs, hr, hone⟩

end Sys2Proof.Machine
end

section
/-! PROOFS. A session end (R46, R47, R69, R70, R91, R129, R130) at the lines, the schedule, the journal and the proposal. -/

namespace Sys2Proof.Machine

/-! ### One line and one entry at the end of their owner's session -/

/-- A line at the session end of a port: retained, freed, or another port's (R69, R70). -/
def Line.afterSession (p : PortId) (l : Line) : Line :=
  if l.owner ≠ some p then l
  else if l.retain ∧ l.mode ≠ .off then
    { l with owner := none, staged := l.staged.map fun g => { g with stager := none } }
  else l.toFree

/-- What a line settles at in a count, it settles at after a session end. -/
theorem afterSession_atPhase (ph : Phase) (p : PortId) {l : Line} (h : l.atPhase ph = l) :
    (l.afterSession p).atPhase ph = l.afterSession p := by
  unfold Line.afterSession
  repeat' split
  · exact h
  · have hdriven := congrArg Line.driven h
    unfold Line.atPhase at hdriven ⊢
    dsimp only
    split at hdriven <;> simp_all
  · exact atPhase_idle ph (Or.inl nofun)

namespace State

/-- An entry at the session end of a port: gone, an orphan, or as it was, by its line (R46, R47). -/
def entryAfterSession (s : State) (p : PortId) (x : Entry) : Option Entry :=
  if s.freedFor p x.line then none
  else if s.retainedFor p x.line then some { x with owner := none, notify := false }
  else some x

variable (s : State) (p : PortId)

theorem lineSessionEnd_line (k j : LineId) :
    (s.lineSessionEnd p k).line j = if k = j then (s.line k).afterSession p else s.line j := by
  have hother : ∀ (u : State) f, u.line j = s.line j → u.line k = s.line k →
      (u.modLine k f).line j = if k = j then f (s.line k) else s.line j := fun u f hj hk => by
    rw [line_modLine, hj, hk]
  unfold lineSessionEnd Line.afterSession
  split
  · split
    · next e => rw [e]
    · rfl
  · split
    · exact hother s (fun l => { l with owner := none, staged := l.staged.map fun g => { g with stager := none } }) rfl rfl
    · have hleave : ∀ i, ((s.orphanResolve k).leaveInput k).line i = s.line i := fun i =>
        (leaveInput_same _ (·.line i) (fun _ _ _ => rfl) (fun _ _ => rfl) k).trans rfl
      exact hother _ _ (hleave j) (hleave k)

theorem lineSessionEnd_schedule (k : LineId) : (s.lineSessionEnd p k).schedule = { s.schedule with
    entries := s.schedule.entries.filterMap fun x => if x.line = k then s.entryAfterSession p x else some x } := by
  have entries : ∀ es,
      es = s.schedule.entries.filterMap (fun x => if x.line = k then s.entryAfterSession p x else some x) →
      ({ s.schedule with entries := es } : Schedule) = { s.schedule with
        entries := s.schedule.entries.filterMap fun x => if x.line = k then s.entryAfterSession p x else some x } :=
    fun es h => by rw [h]
  have entry_eq : ∀ (f : Entry → Option Entry), (∀ x, x.line = k → s.entryAfterSession p x = f x) →
      s.schedule.entries.filterMap (fun x => if x.line = k then s.entryAfterSession p x else some x) =
        s.schedule.entries.filterMap fun x => if x.line = k then f x else some x := fun f hf =>
    List.filterMap_congr fun x _ => by
      split
      · next e => exact hf x e
      · rfl
  unfold lineSessionEnd
  split
  · next ho =>
    refine entries s.schedule.entries ?_
    rw [entry_eq some fun x hx => ?_]
    · simp
    · subst hx; simp [entryAfterSession, freedFor, retainedFor, ho]
  · next ho =>
    rw [not_not] at ho
    split
    · next hr =>
      refine entries (s.schedule.entries.map fun x => if x.line = k then { x with owner := none, notify := false } else x) ?_
      rw [entry_eq (fun x => some { x with owner := none, notify := false }) fun x hx => ?_, ← List.filterMap_eq_map]
      · exact List.filterMap_congr fun x _ => by simp only [Function.comp]; split <;> rfl
      · subst hx; simp [entryAfterSession, freedFor, retainedFor, ho, hr]
    · next hr =>
      have hleave : ((s.orphanResolve k).leaveInput k).schedule = (s.orphanResolve k).schedule :=
        leaveInput_same _ (·.schedule) (fun _ _ _ => rfl) (fun _ _ => rfl) k
      refine hleave.trans (entries (s.schedule.entries.filter fun x => decide (x.line ≠ k)) ?_)
      rw [entry_eq (fun _ => none) fun x hx => ?_, ← List.filterMap_eq_filter]
      · exact List.filterMap_congr fun x _ => by
          by_cases e : x.line = k <;> simp [Option.guard, e]
      · subst hx
        exact if_pos ⟨ho, hr⟩

/-! ### Every line and every entry -/

theorem foldl_lineSessionEnd_line (ks : List LineId) (hk : ks.Nodup) (j : LineId) :
    (ks.foldl (fun t k => t.lineSessionEnd p k) s).line j = if j ∈ ks then (s.line j).afterSession p else s.line j := by
  induction ks generalizing s with
  | nil => simp
  | cons k ks ih =>
    rw [List.nodup_cons] at hk
    rw [List.foldl_cons, ih _ hk.2, lineSessionEnd_line]
    by_cases e : k = j
    · subst e; simp [hk.1]
    · have e' : ¬j = k := fun h => e h.symm
      simp [e, e']

/-- Every line at a session end. -/
theorem linesSessionEnd_line (j : LineId) : (s.linesSessionEnd p).line j = (s.line j).afterSession p := by
  have h := foldl_lineSessionEnd_line s p allLines nodup_allLines j
  rwa [if_pos (mem_allLines j)] at h

theorem entryAfterSession_congr {s u : State} {p : PortId} {x : Entry} (h : u.line x.line = s.line x.line) :
    u.entryAfterSession p x = s.entryAfterSession p x := by
  simp only [entryAfterSession, freedFor, retainedFor, h]

theorem entryAfterSession_line {s : State} {p : PortId} {x y : Entry} (h : s.entryAfterSession p x = some y) :
    y.line = x.line := by
  unfold entryAfterSession at h
  repeat' split at h
  · cases h
  · rw [← Option.some.inj h]
  · rw [← Option.some.inj h]

theorem foldl_lineSessionEnd_schedule (ks : List LineId) (hk : ks.Nodup) :
    (ks.foldl (fun t k => t.lineSessionEnd p k) s).schedule = { s.schedule with
      entries := s.schedule.entries.filterMap fun x => if x.line ∈ ks then s.entryAfterSession p x else some x } := by
  induction ks generalizing s with
  | nil => simp
  | cons k ks ih =>
    rw [List.nodup_cons] at hk
    rw [List.foldl_cons, ih _ hk.2, lineSessionEnd_schedule]
    dsimp only
    rw [List.filterMap_filterMap]
    congr 1
    refine List.filterMap_congr fun x _ => ?_
    have hline : ∀ y : Entry, y.line ∈ ks → (s.lineSessionEnd p k).entryAfterSession p y = s.entryAfterSession p y :=
      fun y hy => entryAfterSession_congr (by
        rw [lineSessionEnd_line, if_neg fun e : k = y.line => hk.1 (e ▸ hy)])
    by_cases e : x.line = k
    · have hk' : ∀ y, s.entryAfterSession p x = some y → ¬y.line ∈ ks := fun y hy hm =>
        hk.1 (e ▸ entryAfterSession_line hy ▸ hm)
      cases hx : s.entryAfterSession p x with
      | none => simp [e]
      | some y => simp [e, hk' y hx]
    · by_cases hm : x.line ∈ ks
      · simp [e, hm, hline x hm]
      · simp [e, hm]

/-- Every entry at a session end. -/
theorem linesSessionEnd_schedule : (s.linesSessionEnd p).schedule = { s.schedule with
    entries := s.schedule.entries.filterMap (s.entryAfterSession p) } := by
  refine (foldl_lineSessionEnd_schedule s p allLines nodup_allLines).trans ?_
  simp only [mem_allLines, if_true]

/-! ### The blocks at a session end -/

/-- The plan unit at a session end (R129, R130). -/
theorem planSessionEnd_plan : (s.planSessionEnd p).plan = match s.plan.proposal with
    | none => s.plan
    | some x =>
      if x.proposer = p then { s.plan with proposal := match x.state with
        | .voting => none
        | .agreed => some { x with request := none } }
      else if x.required.getLsbD p.val then { s.plan with proposal := some (x.withoutVoter p) }
      else s.plan := by
  cases hx : s.plan.proposal with
  | none => simp only [planSessionEnd, hx]
  | some x =>
    simp only [planSessionEnd, hx]
    split
    · unfold proposerEnds
      cases x.state with
      | voting =>
        exact congrArg (fun u : PlanUnit => { u with proposal := none }) (postSet_same s (·.plan) (fun _ _ _ => rfl) _ _)
      | agreed => rfl
    · split <;> rfl

/-- The state in which a session end reaches the lines: the port link and the queue have ended. -/
def linkEnded : State := (s.modPort p Port.ended).modQueue p NoteQueue.cleared

theorem endSession_eq : s.endSession p =
    (((s.linkEnded p).linesSessionEnd p).journalSessionEnd p).planSessionEnd p := rfl

theorem linkEnded_lines_journal : ((s.linkEnded p).linesSessionEnd p).journal = s.journal :=
  linesSessionEnd_same (s.linkEnded p) (·.journal) (fun _ _ _ => rfl) (fun _ _ => rfl) (fun _ _ _ => rfl) (fun _ _ => rfl) p

theorem linkEnded_lines_plan : ((s.linkEnded p).linesSessionEnd p).plan = s.plan :=
  linesSessionEnd_same (s.linkEnded p) (·.plan) (fun _ _ _ => rfl) (fun _ _ => rfl) (fun _ _ _ => rfl) (fun _ _ => rfl) p

theorem endSession_line (k : LineId) : (s.endSession p).line k = (s.line k).afterSession p := by
  rw [endSession_eq]
  generalize hu : (s.linkEnded p).linesSessionEnd p = u
  have hline : u.line k = (s.line k).afterSession p := hu ▸ linesSessionEnd_line (s.linkEnded p) p k
  exact (planSessionEnd_same (u.journalSessionEnd p) (·.line k) (fun _ _ _ => rfl) (fun _ _ => rfl) p).trans hline

theorem endSession_schedule : (s.endSession p).schedule = { s.schedule with
    entries := s.schedule.entries.filterMap (s.entryAfterSession p) } := by
  rw [endSession_eq]
  generalize hu : (s.linkEnded p).linesSessionEnd p = u
  have hschedule := linesSessionEnd_schedule (s.linkEnded p) p
  rw [hu] at hschedule
  exact (planSessionEnd_same (u.journalSessionEnd p) (·.schedule) (fun _ _ _ => rfl) (fun _ _ => rfl) p).trans hschedule

theorem endSession_journal : (s.endSession p).journal = (s.journalSessionEnd p).journal := by
  have hjournal := linkEnded_lines_journal s p
  rw [endSession_eq]
  generalize (s.linkEnded p).linesSessionEnd p = u at hjournal ⊢
  refine (planSessionEnd_same (u.journalSessionEnd p) (·.journal) (fun _ _ _ => rfl) (fun _ _ => rfl) p).trans ?_
  simp only [journalSessionEnd, setMissed_journal, setSubs_journal, setRecords_journal, hjournal]

theorem endSession_plan : (s.endSession p).plan = (s.planSessionEnd p).plan := by
  have hplan := linkEnded_lines_plan s p
  rw [endSession_eq]
  generalize (s.linkEnded p).linesSessionEnd p = u at hplan ⊢
  have hplan' : (u.journalSessionEnd p).plan = s.plan := hplan
  have h1 := planSessionEnd_plan (u.journalSessionEnd p) p
  have h2 := planSessionEnd_plan s p
  rw [hplan'] at h1
  exact h1.trans h2.symm

theorem serial_of_stable {a b : State} (h : a.stable = b.stable) : a.count.serial = b.count.serial :=
  congrArg Stable.serial h

theorem endSession_serial : (s.endSession p).count.serial = s.count.serial := serial_of_stable (stable_endSession s p)

end State

/-! ### The command that ends a session -/

/-- The entries at a session end: those of freed lines leave the list, those of retained lines become orphans. -/
theorem filterMap_entryAfterSession (s : State) (p : PortId) (es : List Entry) :
    es.filterMap (s.entryAfterSession p) = (es.filter fun x => !decide (s.freedFor p x.line)).map fun x =>
      if s.retainedFor p x.line then { x with owner := none, notify := false } else x := by
  rw [← List.filterMap_eq_map, ← List.filterMap_eq_filter, List.filterMap_filterMap]
  refine List.filterMap_congr fun x _ => ?_
  unfold State.entryAfterSession
  by_cases hf : s.freedFor p x.line
  · rw [if_pos hf]
    simp only [Option.guard, decide_eq_true hf, Bool.not_true, Bool.false_eq_true, if_false, Option.bind_none]
  · rw [if_neg hf]
    simp only [Option.guard, decide_eq_false hf, Bool.not_false, if_true, Option.bind_some, Function.comp]
    split <;> rfl

/-- A command that ends a session answers the session end of the state or of its marked count, at all but the ports. -/
theorem exec_endsSession {s : State} {p : PortId} {c : Instr} (h : s.endsSession p c) : ∃ u f,
    exec c s = .next ((State.endSession p u).modPort p f).settle ∧ s.settled ∧ u.lines = s.lines ∧ u.schedule = s.schedule ∧
      u.journal = s.journal ∧ u.plan = s.plan ∧ u.time = s.time ∧ u.sync = s.sync ∧ u.count.serial = s.count.serial := by
  rcases h with ⟨id, rfl, h⟩ | ⟨rfl, hh, ho, hs⟩
  · refine ⟨s.marked p, fun q => { q with responses := q.responses ++ [⟨kindClose, id, .ok,
      .closed ((s.marked p).port p).session, ((s.marked p).endSession p).count.serial⟩] }, ?_, h.2.2, rfl,
      rfl, rfl, rfl, rfl, rfl, rfl⟩
    show answer ((s.linkCount p).take p kindClose id true (State.closeSession p id)) = _
    rw [answer_take_open h]
    rfl
  · refine ⟨s, Port.reset, ?_, hs, rfl, rfl, rfl, rfl, rfl, rfl, rfl⟩
    unfold State.handles at hh
    rw [Bool.and_eq_true, Bool.not_eq_true', Bool.not_eq_true'] at hh
    show answer (s.prstAssert p) = _
    simp only [State.prstAssert, hh.1, hh.2, ho, if_true]
    rfl

/-- A vote that a port leaves (R129). -/
theorem withoutVoter_eq (x : Proposal) (p : PortId) : x.withoutVoter p = { x with
    required := x.required &&& ~~~(1#4 <<< p.val)
    accepted := x.accepted &&& ~~~(1#4 <<< p.val)
    state := if x.accepted &&& ~~~(1#4 <<< p.val) = x.required &&& ~~~(1#4 <<< p.val) then .agreed else x.state } := by
  unfold Proposal.withoutVoter Proposal.decided withoutPort
  dsimp only
  split
  · next hs => rw [hs, ite_self]
  · next hs => split <;> simp_all

/-- Settles O55, block by block. -/
theorem sessionEndReachesEveryBlock : Obligations.SessionEndReachesEveryBlock := by
  intro s p c h
  obtain ⟨u, f, he, hs, hl, hsch, hj, hpl, ht, hsy, hc⟩ := exec_endsSession h
  generalize hv : State.endSession p u = v at he
  have huline : ∀ k, u.line k = s.line k := fun k => by simp only [State.line, hl]
  have hvline : ∀ k, v.line k = (s.line k).afterSession p := fun k => by
    rw [← hv, State.endSession_line, huline]
  have hline : ∀ k, ((v.modPort p f).settle).line k = (s.line k).afterSession p := fun k => by
    rw [State.settle_line, State.line_modPort, hvline, State.modPort_time, ← hv, State.endSession_time, ht]
    exact afterSession_atPhase _ p (State.settled_line hs k)
  have hplan : (v.modPort p f).settle.plan = (u.planSessionEnd p).plan := by
    rw [← State.endSession_plan, hv]; rfl
  have hjournal : v.journal = (s.journalSessionEnd p).journal := by
    rw [← hv, State.endSession_journal]
    simp only [State.journalSessionEnd, State.setMissed_journal, State.setSubs_journal, State.setRecords_journal, hj]
  have hrecords : ∀ r ∈ v.journal.records, r.refresh (v.modPort p f) = r := by
    have hsync : v.sync = s.sync := by rw [← hv, State.endSession_sync, hsy]
    have hserial : v.count.serial = s.count.serial := by rw [← hv, State.endSession_serial, hc]
    intro r hr
    rw [hjournal] at hr
    obtain ⟨r', hr', rfl⟩ := List.mem_map.mp (List.mem_filter.mp hr).1
    have hq := congrArg Record.quality (State.settled_record hs r' hr')
    rw [Record.refresh_eq] at hq ⊢
    rw [State.modPort_sync, State.modPort_count, hsync, hserial]
    exact congrArg (fun q => { r' with quality := q, readers := withoutPort r'.readers p }) hq
  refine ⟨_, he, fun k hk => ?_, fun k hk => ?_, fun k hk => ?_, ?_, ?_, ?_, ?_, ?_, fun q hq => ?_, fun hn => ?_,
    fun x hx => ⟨fun hp hst => ?_, fun hp hst => ?_, fun hp hr => ?_, fun hp hr req acc hreq hacc => ?_⟩⟩
  · rw [hline, Line.afterSession, if_neg (not_not.mpr hk.1), if_pos hk.2]
  · rw [hline, Line.afterSession, if_neg (not_not.mpr hk.1), if_neg hk.2]; rfl
  · rw [hline, Line.afterSession, if_pos hk]
  · have hent : u.entryAfterSession p = s.entryAfterSession p := funext fun x => State.entryAfterSession_congr (huline _)
    have hsched : v.schedule = { u.schedule with entries := u.schedule.entries.filterMap (u.entryAfterSession p) } := by
      rw [← hv, State.endSession_schedule]
    rw [← filterMap_entryAfterSession, ← hent, ← hsch]
    exact hsched
  · rw [State.settle_journal]
    refine ((List.map_congr_left hrecords).trans (List.map_id _)).trans ?_
    rw [hjournal]; rfl
  · exact (congrArg Journal.counter hjournal).trans rfl
  · refine (congrArg (fun j : Journal => j.subs[p]) hjournal).trans ?_
    exact vector_set_get_same _ _ _
  · refine (congrArg (fun j : Journal => j.missed[p]) hjournal).trans ?_
    exact vector_set_get_same _ _ _
  · refine ⟨(congrArg (fun j : Journal => j.subs[q]) hjournal).trans ?_,
      (congrArg (fun j : Journal => j.missed[q]) hjournal).trans ?_⟩
    · exact vector_set_get_ne _ _ (Ne.symm hq)
    · exact vector_set_get_ne _ _ (Ne.symm hq)
  · rw [hplan, State.planSessionEnd_plan, hpl, hn]
  · rw [hplan, State.planSessionEnd_plan, hpl, hx]
    simp [hp, hst]
  · rw [hplan, State.planSessionEnd_plan, hpl, hx]
    simp [hp, hst]
  · rw [hplan, State.planSessionEnd_plan, hpl, hx]
    dsimp only
    rw [if_neg hp, if_neg (by rw [hr]; exact nofun)]
    exact hx
  · rw [hplan, State.planSessionEnd_plan, hpl, hx, hreq, hacc, ← withoutVoter_eq]
    dsimp only
    rw [if_neg hp, if_pos hr]

end Sys2Proof.Machine
end

section
/-! PROOFS. What every step keeps: a property that the operations of the blocks keep, every command keeps. The commands are
taken apart once here; each invariant gives the operations it needs. -/

namespace Sys2Proof.Machine

/-- A change of a line that keeps its mode, owner and retain flag. -/
def Line.KeepsStanding (f : Line → Line) : Prop :=
  ∀ l, (f l).mode = l.mode ∧ (f l).owner = l.owner ∧ (f l).retain = l.retain

/-- A change of a port link that keeps its session state and adds nothing to what is pending. -/
def Port.KeepsSession (f : Port → Port) : Prop :=
  ∀ q, (f q).isOpen = q.isOpen ∧ (f q).deferred = q.deferred ∧ (f q).responses.length ≤ q.responses.length

/-! ### Requests -/

/-- Where the entry of an accepted post stands in time: its due time ahead and within horizon, or the end of its pulse a
width from T (R26, R29). -/
def State.entersAt (s : State) (f : PostFields) : Option Pulse → Prop
  | none => ahead s.time.t f.due = true ∧ withinHorizon s.time.t f.due = true
  | some g => g.endTime = s.time.t + f.width.zeroExtend 48 ∧ f.width ≠ 0

/-- The fields of a post that passed check 3 are those of the request, with a width where the kind has one (R25). -/
theorem postFieldsOf_fields {k : LineId} {kind : Byte} {width : Phase} {due : TimeCount} {late sync notify : Byte}
    {tag : BitVec 16} {f : PostFields} (h : postFieldsOf k kind width due late sync notify tag = some f) :
    f.line = k ∧ f.due = due ∧ f.kind.isPulse = decide (f.width ≠ 0) := by
  unfold postFieldsOf at h
  repeat' split at h
  · next hw => rw [← Option.some.inj h]; exact ⟨rfl, rfl, hw⟩
  all_goals cases h

/-- The operations of a request of port `p` that keep `P`, and the answers that lead from `P` to `R`: every request ends with
one answer or one request held. -/
structure KeptByRequests (p : PortId) (P R : State → Prop) : Prop where
  post : ∀ s q b, P s → P (s.post q b)
  deferred : ∀ s q o r b, P s → P (s.answerDeferred q o r b)
  plan : ∀ (s : State) x, P s → P { s with plan := x }
  dropChange : ∀ s k, P s → P (s.dropChange k)
  line : ∀ s k f, Line.KeepsStanding f → P s → P (s.modLine k f)
  accept : ∀ s e x, P s → P (s.acceptOpen p e x)
  close : ∀ s, P s → P (s.endSession p)
  enter_list : ∀ (s : State) (f : PostFields) (g : Option Pulse), s.roomCheck p = none →
    (s.line f.line).owner = some p → (s.line f.line).mode = .outputEvent → s.entersAt f g → P s →
    P (s.numbered (place s.count.ref (f.entry p s.schedule.counter g) s.schedule.entries))
  number : ∀ s, P s → P s.bumpActions
  remove : ∀ s n, P s → P (s.setEntries (removeNumber n s.schedule.entries))
  claim : ∀ s k, s.isOpen p = true → (s.line k).owner = none → (s.line k).retain = false → P s →
    P (s.modLine k fun l => { l with owner := some p })
  adopt : ∀ s k, s.isOpen p = true → (s.line k).owner = none → P s →
    P ((s.modLine k fun l => { l with owner := some p }).adopt k p)
  free : ∀ s k, (s.line k).owner = some p → s.entriesOn k = 0 → P s → P (s.modLine k Line.toFree)
  fields : ∀ s k f, (s.line k).owner = some p → P s → P (s.modLine k (Line.withFields f))
  enter : ∀ s k f, (s.line k).owner = some p → s.entriesOn k = 0 → P s →
    P (s.modLine k fun l => (l.withFields f).enter f)
  subscribe : ∀ s x, P s → P (s.setSubs p x)
  read : ∀ s sent, P s → P ((s.setMissed p 0).setRecords (dropReader p sent s.journal.records))
  acknowledge : ∀ s n, P s → P (s.modQueue p (NoteQueue.remove n))
  respond : ∀ s k i r b, P s → R (s.respond p k i r b)
  hold : ∀ s k i o, P s → R (s.hold p k i o)
  post_after : ∀ s q b, R s → R (s.post q b)

/-- A line that has dropped its staged program and left INPUT: its other fields and the list are as before. -/
theorem left_line (s : State) (k : LineId) :
    ((s.discardStaged k).leaveInput k).line k = { s.line k with staged := none } ∧
      ((s.discardStaged k).leaveInput k).entriesOn k = s.entriesOn k := by
  have hleave : ∀ u : State, (u.leaveInput k).line k = u.line k ∧ (u.leaveInput k).schedule = u.schedule := fun u =>
    ⟨State.leaveInput_same u (·.line k) (fun _ _ _ => rfl) (fun _ _ => rfl) k,
      State.leaveInput_same u (·.schedule) (fun _ _ _ => rfl) (fun _ _ => rfl) k⟩
  have hstager : ∀ r b, (s.answerStager k r b).line k = s.line k ∧ (s.answerStager k r b).schedule = s.schedule :=
    fun r b => ⟨State.answerStager_same s (·.line k) (fun _ _ _ => rfl) k r b,
      State.answerStager_same s (·.schedule) (fun _ _ _ => rfl) k r b⟩
  refine ⟨?_, ?_⟩
  · rw [(hleave _).1, State.discardStaged, State.line_modLine_same, (hstager _ _).1]
  · unfold State.entriesOn
    rw [(hleave _).2, State.discardStaged, State.modLine_schedule, (hstager _ _).2]

namespace KeptByRequests
variable {p : PortId} {P R : State → Prop} (h : KeptByRequests p P R) {s : State}
include h

theorem handLevel (k : LineId) (v : Level) (hs : P s) : P (s.handLevel k v) :=
  h.line s k _ (fun l => by split <;> exact ⟨rfl, rfl, rfl⟩) hs

theorem answerStager (k : LineId) (r : Result) (b : Body) (hs : P s) : P (s.answerStager k r b) :=
  State.answerStager_keeps h.deferred s k r b hs

theorem discardStaged (k : LineId) (hs : P s) : P (s.discardStaged k) :=
  h.line _ k _ (fun _ => ⟨rfl, rfl, rfl⟩) (h.answerStager k _ _ hs)

theorem leaveInput (k : LineId) (hs : P s) : P (s.leaveInput k) := by
  unfold State.leaveInput State.stopInput
  split
  · refine h.dropChange _ k (forPorts_keeps (fun q t ht => ?_) s hs)
    split
    · exact h.post t q _ ht
    · exact ht
  · exact hs

theorem endProposal (x : Proposal) (told : PortSet) (r : Result) (j : Option PortId) (o : PlanOutcome) (hs : P s) :
    P (s.endProposal x told r j o) :=
  h.plan _ _ (State.postSet_keeps h.post _ _ _ (State.answerProposer_keeps h.deferred s x r _ hs))

theorem cancelOne (x : Entry) (hs : P s) : P (s.cancelOne x) := by
  have resolve : ∀ u : State, P u → P (u.resolve x .cancelled) := fun u hu => by
    have hremoved := h.remove u x.number hu
    unfold State.resolve State.report
    repeat' split
    · exact hremoved
    · exact h.post _ _ _ hremoved
    · exact hremoved
  unfold State.cancelOne State.trail
  repeat' split
  · exact resolve s hs
  · exact resolve _ (h.handLevel _ _ hs)
  · exact resolve s hs

theorem cancelAll (id : Byte) (sel : Entry → Bool) (hs : P s) : R (s.cancelAll p id sel) := by
  have fold : ∀ (l : List Entry) (u : State), P u → P (l.foldl State.cancelOne u) := fun l => by
    induction l with
    | nil => exact fun _ hu => hu
    | cons x xs ih => exact fun u hu => ih _ (h.cancelOne x hu)
  exact h.respond _ _ _ _ _ (fold _ s hs)

/-! #### One lemma for each request that changes more than its answer -/

theorem openSession (id : Byte) (e : BitVec 16) (x : LineSet) (hs : P s) : R (s.openSession p id e x) := by
  unfold State.openSession
  repeat' split
  · exact h.respond _ _ _ _ _ hs
  · exact h.respond _ _ _ _ _ hs
  · exact h.respond _ _ _ _ _ (h.accept s e x hs)

theorem postChecked (id : Byte) (f : PostFields) (ho : (s.line f.line).owner = some p)
    (hm : (s.line f.line).mode = .outputEvent) (hw : withinHorizon s.time.t f.due = true)
    (hk : f.kind.isPulse = decide (f.width ≠ 0)) (hs : P s) : R (s.postChecked p id f) := by
  have hlead : ∀ u : State, P u → P (u.lead f.line f.kind) := fun u hu => h.handLevel _ _ hu
  unfold State.postChecked
  split
  · next ha =>
    unfold State.postFuture
    split
    · exact h.respond _ _ _ _ _ hs
    · next hr => exact h.respond _ _ _ _ _ (h.enter_list s f none hr ho hm ⟨ha, hw⟩ hs)
  · split
    · exact h.respond _ _ _ _ _ hs
    · split
      · next hp =>
        have hwidth : f.width ≠ 0 := of_decide_eq_true (hk.symm.trans hp)
        unfold State.postLatePulse
        repeat' split
        · exact h.respond _ _ _ _ _ hs
        · next hr _ =>
          have hm' : ((s.lead f.line f.kind).line f.line).owner = some p ∧
              ((s.lead f.line f.kind).line f.line).mode = .outputEvent := by
            rw [State.lead_line _ hm]; exact ⟨ho, hm⟩
          exact h.respond _ _ _ _ _ (h.enter_list (s.lead f.line f.kind) f (some _) hr hm'.1 hm'.2
            ⟨rfl, hwidth⟩ (hlead s hs))
        · exact h.respond _ _ _ _ _ (h.number s hs)
      · unfold State.postLateAction
        split
        · exact h.respond _ _ _ _ _ (hlead _ (h.number s hs))
        · exact h.respond _ _ _ _ _ (h.number s hs)

theorem actionPost (id line kind : Byte) (width : Phase) (due : TimeCount) (late sync notify : Byte) (tag : BitVec 16)
    (hs : P s) : R (s.actionPost p id line kind width due late sync notify tag) := by
  unfold State.actionPost
  split
  · exact h.respond _ _ _ _ _ hs
  · next k _ =>
    split
    · exact h.respond _ _ _ _ _ hs
    · next ho =>
      split
      · exact h.respond _ _ _ _ _ hs
      · next hm =>
        split
        · exact h.respond _ _ _ _ _ hs
        · next f hf =>
          obtain ⟨hline, hdue, hpulse⟩ := postFieldsOf_fields hf
          split
          · next hw =>
            refine h.postChecked id f ?_ ?_ ?_ hpulse hs
            · rw [hline]; exact not_not.mp ho
            · rw [hline]; exact not_not.mp hm
            · rw [hdue]; exact hw
          · exact h.respond _ _ _ _ _ hs

theorem actionCancel (id sel : Byte) (arg : BitVec 32) (hs : P s) : R (s.actionCancel p id sel arg) := by
  unfold State.actionCancel
  dsimp only
  repeat' split
  · exact h.respond _ _ _ _ _ hs
  · exact h.cancelAll id _ hs
  · exact h.respond _ _ _ _ _ hs
  · exact h.respond _ _ _ _ _ hs
  · exact h.cancelAll id _ hs
  · exact h.respond _ _ _ _ _ hs
  · exact h.cancelAll id _ hs
  · exact h.respond _ _ _ _ _ hs

theorem lineClaim (id line : Byte) (hopen : s.isOpen p = true) (hs : P s) : R (s.lineClaim p id line) := by
  unfold State.lineClaim
  split
  · exact h.respond _ _ _ _ _ hs
  · next k _ =>
    split
    · split
      · exact h.respond _ _ _ _ _ hs
      · exact h.respond _ _ _ _ _ hs
    · next ho =>
      split
      · exact h.respond _ _ _ _ _ (h.adopt s k hopen ho hs)
      · next hr => exact h.respond _ _ _ _ _ (h.claim s k hopen ho (Bool.eq_false_iff.mpr hr) hs)

theorem lineRelease (id line : Byte) (hs : P s) : R (s.lineRelease p id line) := by
  unfold State.lineRelease
  split
  · exact h.respond _ _ _ _ _ hs
  · next k _ =>
    obtain ⟨hline, hentries⟩ := left_line s k
    repeat' split
    · exact h.respond _ _ _ _ _ hs
    · exact h.respond _ _ _ _ _ hs
    · next ho he =>
      refine h.respond _ _ _ _ _ (h.free _ k ?_ ?_ (h.leaveInput k (h.discardStaged k hs)))
      · rw [hline]; exact not_not.mp ho
      · rw [hentries]; exact not_not.mp he

theorem applyConfig (k : LineId) (f : LineFields) (ho : (s.line k).owner = some p)
    (he : f.mode ≠ (s.line k).mode → s.entriesOn k = 0) (hs : P s) : P (s.applyConfig k f) := by
  obtain ⟨hline, hentries⟩ := left_line s k
  unfold State.applyConfig
  split
  · exact h.fields s k f ho hs
  · next hm =>
    refine h.enter _ k f ?_ ?_ (h.leaveInput k (h.discardStaged k hs))
    · rw [hline]; exact ho
    · rw [hentries]; exact he hm

theorem lineConfig (id line mode safe retain edge initial : Byte) (hs : P s) :
    R (s.lineConfig p id line mode safe retain edge initial) := by
  unfold State.lineConfig
  split
  · exact h.respond _ _ _ _ _ hs
  · next k _ =>
    repeat' split
    · exact h.respond _ _ _ _ _ hs
    · exact h.respond _ _ _ _ _ hs
    · exact h.respond _ _ _ _ _ hs
    · next ho _ f _ hb =>
      refine h.respond _ _ _ _ _ (h.applyConfig k f (not_not.mp ho) (fun hm => ?_) hs)
      exact not_not.mp fun he => hb ⟨hm, he⟩

theorem lineDrive (id line level : Byte) (hs : P s) : R (s.lineDrive p id line level) := by
  unfold State.lineDrive
  repeat' split
  · exact h.respond _ _ _ _ _ hs
  · exact h.respond _ _ _ _ _ hs
  · exact h.respond _ _ _ _ _ hs
  · exact h.respond _ _ _ _ _ hs
  · exact h.respond _ _ _ _ _ (h.handLevel _ _ hs)

theorem cycleStage (id line : Byte) (rise fall : Phase) (force : Byte) (hs : P s) :
    R (s.cycleStage p id line rise fall force) := by
  unfold State.cycleStage State.acceptStage
  repeat' split
  · exact h.respond _ _ _ _ _ hs
  · exact h.respond _ _ _ _ _ hs
  · exact h.respond _ _ _ _ _ hs
  · exact h.respond _ _ _ _ _ hs
  · exact h.hold _ _ _ _ (h.line _ _ _ (fun _ => ⟨rfl, rfl, rfl⟩) (h.answerStager _ _ _ hs))
  · exact h.respond _ _ _ _ _ hs

theorem journalRead (id maximum : Byte) (hs : P s) : R (s.journalRead p id maximum) := by
  unfold State.journalRead
  split
  · exact h.respond _ _ _ _ _ hs
  · exact h.respond _ _ _ _ _ (h.read s _ hs)

theorem noteAck (id : Byte) (n : BitVec 16) (hs : P s) : R (s.noteAck p id n) := by
  unfold State.noteAck
  split
  · exact h.respond _ _ _ _ _ (h.acknowledge s n hs)
  · exact h.respond _ _ _ _ _ hs

theorem planPropose (id : Byte) (f : PlanFields) (hs : P s) : R (s.planPropose p id f) := by
  unfold State.planPropose State.acceptPropose
  repeat' split
  · exact h.respond _ _ _ _ _ hs
  · exact h.respond _ _ _ _ _ hs
  · exact State.postSet_keeps h.post_after _ _ _ (h.hold _ _ _ _ (h.plan _ _ (h.plan s _ hs)))

theorem planVote (id : Byte) (n : BitVec 16) (decision : Byte) (hs : P s) : R (s.planVote p id n decision) := by
  unfold State.planVote State.acceptVote State.rejectVote
  repeat' split
  · exact h.respond _ _ _ _ _ hs
  · exact h.respond _ _ _ _ _ hs
  · exact h.respond _ _ _ _ _ hs
  · exact h.respond _ _ _ _ _ hs
  · exact h.respond _ _ _ _ _ hs
  · exact h.respond _ _ _ _ _ hs
  · exact h.respond _ _ _ _ _ (h.plan s _ hs)
  · exact h.respond _ _ _ _ _ (h.endProposal _ _ _ _ _ hs)

theorem planWithdraw (id : Byte) (hs : P s) : R (s.planWithdraw p id) := by
  unfold State.planWithdraw
  repeat' split
  · exact h.respond _ _ _ _ _ hs
  · exact h.respond _ _ _ _ _ hs
  · exact h.respond _ _ _ _ _ hs
  · exact h.respond _ _ _ _ _ (h.endProposal _ _ _ _ _ hs)

end KeptByRequests

/-! ### The gate of the request link -/

/-- What the requests of each port keep, with an answer while fewer than the limit are pending, every request taken keeps
(R143, R144). -/
theorem serve_keeps {R : State → Prop} (hlink : ∀ s p f, Port.KeepsSession f → R s → R (s.modPort p f))
    (hreq : ∀ s p, R s → s.pendingCount p < Config.pendingLimit → ∃ P, P s ∧ KeptByRequests p P R) (s : State)
    (i : Instr) (hs : R s) : R (s.serve i) := by
  have gate : ∀ p k id n (op : State → State),
      (∀ P, KeptByRequests p P R → P s → (n = true → s.isOpen p = true) → R (op s)) → R (s.take p k id n op) :=
    fun p k id n op hop => by
      unfold State.take
      split
      · exact hs
      · split
        · exact hlink s p _ (fun _ => ⟨rfl, rfl, Nat.le_refl _⟩) hs
        · next hlimit =>
          obtain ⟨P, hP, hkept⟩ := hreq s p hs (Nat.not_le.mp hlimit)
          split
          · exact hkept.respond _ _ _ _ _ hP
          · next hopen =>
            exact hop P hkept hP fun hn => by
              rw [hn, Bool.true_and, Bool.not_eq_true', Bool.not_eq_false] at hopen
              exact hopen
  have answers : ∀ p k id n (op : State → State), (∃ k i r b, op s = s.respond p k i r b) → R (s.take p k id n op) :=
    fun p k id n op ⟨_, _, _, _, e⟩ => gate p k id n op fun _ h hP _ => by rw [e]; exact h.respond _ _ _ _ _ hP
  cases i with
  | unknownKind p k id b => exact answers _ _ _ _ _ ⟨_, _, _, _, rfl⟩
  | openSession p id e x => exact gate _ _ _ _ _ fun _ h hP _ => h.openSession id e x hP
  | closeSession p id => exact gate _ _ _ _ _ fun _ h hP _ => h.respond _ _ _ _ _ (h.close s hP)
  | statusRead p id => exact answers _ _ _ _ _ ⟨_, _, _, _, rfl⟩
  | timeRead p id => exact answers _ _ _ _ _ ⟨_, _, _, _, rfl⟩
  | actionPost p id l k w d lp sc nt tag => exact gate _ _ _ _ _ fun _ h hP _ => h.actionPost id l k w d lp sc nt tag hP
  | actionCancel p id sel a => exact gate _ _ _ _ _ fun _ h hP _ => h.actionCancel id sel a hP
  | actionQuery p id n =>
    exact answers _ _ _ _ _ (by unfold State.actionQuery; split <;> exact ⟨_, _, _, _, rfl⟩)
  | lineClaim p id l => exact gate _ _ _ _ _ fun _ h hP ho => h.lineClaim id l (ho rfl) hP
  | lineRelease p id l => exact gate _ _ _ _ _ fun _ h hP _ => h.lineRelease id l hP
  | lineConfig p id l m sf r e v => exact gate _ _ _ _ _ fun _ h hP _ => h.lineConfig id l m sf r e v hP
  | lineDrive p id l v => exact gate _ _ _ _ _ fun _ h hP _ => h.lineDrive id l v hP
  | lineQuery p id l => exact answers _ _ _ _ _ (by unfold State.lineQuery; split <;> exact ⟨_, _, _, _, rfl⟩)
  | cycleStage p id l a b f => exact gate _ _ _ _ _ fun _ h hP _ => h.cycleStage id l a b f hP
  | subscribe p id x => exact gate _ _ _ _ _ fun _ h hP _ => h.respond _ _ _ _ _ (h.subscribe s x hP)
  | journalRead p id m => exact gate _ _ _ _ _ fun _ h hP _ => h.journalRead id m hP
  | noteRead p id => exact answers _ _ _ _ _ ⟨_, _, _, _, rfl⟩
  | noteAck p id n => exact gate _ _ _ _ _ fun _ h hP _ => h.noteAck id n hP
  | planPropose p id f => exact gate _ _ _ _ _ fun _ h hP _ => h.planPropose id f hP
  | planVote p id n d => exact gate _ _ _ _ _ fun _ h hP _ => h.planVote id n d hP
  | planWithdraw p id => exact gate _ _ _ _ _ fun _ h hP _ => h.planWithdraw id hP
  | planRead p id => exact answers _ _ _ _ _ ⟨_, _, _, _, rfl⟩
  | noneRequest | resetNAssert | resetNRelease | prstAssert | prstRelease | cclkCount | frameBoundaryEvent
  | holdoverLimitExpiry | voteWindowExpiry | refinEdge | backwardStep | forwardStep | actionDue | pulseTrailingEdge
  | lineLevelChange | responseChoice | transactionEnd => exact hs

/-! ### Every command -/

/-- The operations of the commands, each of which keeps `P`. -/
structure KeptByCommands (P : State → Prop) : Prop where
  settle : ∀ s, P s → P s.settle
  reset : ∀ s st, P s → P (s.resetAssert st)
  release : ∀ s, P s → P s.resetRelease
  port_reset : ∀ s p, P s → P ((if s.isOpen p then s.endSession p else s).modPort p Port.reset)
  link : ∀ s p f, Port.KeepsSession f → P s → P (s.modPort p f)
  frame_event : ∀ s, P s → P s.takeFrameEvent
  resolve : ∀ s x rest, s.schedule.entries = x :: rest → s.isDue x = true → P s → P (s.resolveOne x)
  refin : ∀ s, P s → P s.takeRefin
  changes : ∀ s k, P s → P (s.takeChangesTo k)
  move : ∀ s, P s → P s.endCount → P s.endCount.moveCount
  sample : ∀ s v x, P s → P (((s.sampleRefin v).sampleLines x).drivePins v x).settleLines
  pins : ∀ s v x, P s → P (s.drivePins v x)
  serve : ∀ s i, P s → P (s.serve i)

namespace KeptByCommands
variable {P : State → Prop} (h : KeptByCommands P) {s : State}
include h

theorem resolveHeads (go : State → Bool) (n : Nat) (hs : P s) : P (resolveHeads go n s) := by
  induction n generalizing s with
  | zero => exact hs
  | succ n ih =>
    unfold Machine.resolveHeads
    split
    · exact hs
    · next x rest hl =>
      split
      · next hc => exact ih (h.resolve s x rest hl (Bool.and_eq_true_iff.mp hc).1 hs)
      · exact hs

theorem resolveToPulse (n : Nat) (hs : P s) : P (resolveToPulse n s) := by
  induction n generalizing s with
  | zero => exact hs
  | succ n ih =>
    unfold Machine.resolveToPulse
    split
    · exact hs
    · next x rest hl =>
      repeat' split
      · next hdue _ => exact h.resolve s x rest hl hdue hs
      · next hdue _ => exact ih (h.resolve s x rest hl hdue hs)
      · exact hs

theorem endCount (hs : P s) : P s.endCount :=
  h.settle _ (h.changes _ _ (h.refin _ (h.resolveHeads _ _ (h.frame_event s hs))))

theorem beginCount (v : Level) (x : LineSet) (hs : P s) : P (s.beginCount v x) := by
  cases hr : s.resetLow with
  | true => rw [State.beginCount_held v x hr]; exact h.pins s v x hs
  | false => rw [State.beginCount_eq v x hr]; exact h.sample _ v x (h.move s hs (h.endCount hs))

theorem takeOrNext (waits : State → Bool) {take : State → State} (ht : ∀ u, P u → P (take u)) (hs : P s) :
    P (s.takeOrNext waits take) := by
  unfold State.takeOrNext
  repeat' split
  · exact ht _ hs
  · exact ht _ (h.beginCount _ _ hs)
  · exact hs

theorem linkCount (p : PortId) (hs : P s) : P (s.linkCount p) := by
  have used : ∀ u, P u → P (u.useCount p) := fun u => h.link u p _ fun _ => ⟨rfl, rfl, Nat.le_refl _⟩
  unfold State.linkCount
  repeat' split
  · exact used s hs
  · exact used _ (h.beginCount _ _ hs)
  · exact hs

theorem selectFalls (p : PortId) (hs : P s) : P (s.selectFalls p) := by
  unfold State.selectFalls
  repeat' split
  · exact hs
  · exact h.link _ p _ (fun _ => ⟨rfl, rfl, Nat.le_refl _⟩) (h.linkCount p hs)
  · exact h.link s p _ (fun _ => ⟨rfl, rfl, Nat.le_refl _⟩) hs

theorem selectRises (p : PortId) (mosi : List Bool) (hs : P s) : P (s.selectRises p mosi) := by
  have finish : ∀ c, Port.KeepsSession (Port.finish c mosi) := fun c q => by
    unfold Port.finish Port.settleTransfer
    split
    · refine ⟨rfl, rfl, ?_⟩
      dsimp only
      split
      · exact Nat.le_refl _
      · exact (List.tail_sublist _).length_le
    · exact ⟨rfl, rfl, Nat.le_refl _⟩
  unfold State.selectRises
  split
  · exact hs
  · split
    · exact h.link _ p _ (fun _ => ⟨rfl, rfl, Nat.le_refl _⟩) (h.linkCount p hs)
    · next c _ =>
      have hfinished := h.link _ p _ (finish c) (h.linkCount p hs)
      unfold State.receive
      repeat' split
      · exact hfinished
      · exact h.link _ p _ (fun _ => ⟨rfl, rfl, Nat.le_refl _⟩) hfinished
      · exact h.serve _ _ hfinished

theorem prstAssert (p : PortId) (hs : P s) : P (s.prstAssert p) := by
  unfold State.prstAssert
  repeat' split
  · exact h.link s p _ (fun _ => ⟨rfl, rfl, Nat.le_refl _⟩) hs
  · exact hs
  · next ho => simpa [ho] using h.port_reset s p hs
  · next ho => simpa [ho] using h.port_reset s p hs

/-- Every command answers the settled state of operations that keep the property. -/
theorem exec (c : Instr) {t : State} (hs : P s) (e : exec c s = .next t) : P t := by
  have settled : ∀ u : State, P u → answer u = .next t → P t := fun u hu ht => by
    rw [← Host.Outcome.next.inj ht]; exact h.settle u hu
  have event : ∀ waits, answer (s.takeOrNext waits State.takeFrameEvent) = .next t → P t := fun waits =>
    settled _ (h.takeOrNext waits h.frame_event hs)
  have request : ∀ p i, answer ((s.linkCount p).serve i) = .next t → P t := fun p i =>
    settled _ (h.serve _ i (h.linkCount p hs))
  cases c with
  | resetNAssert st => exact settled _ (h.reset s st hs) e
  | resetNRelease => exact settled _ (h.release s hs) e
  | prstAssert p => exact settled _ (h.prstAssert p hs) e
  | prstRelease p =>
    refine settled (s.prstRelease p) ?_ e
    rw [State.prstRelease_eq]
    exact h.link s p _ (fun _ => ⟨rfl, rfl, Nat.le_refl _⟩) hs
  | cclkCount v x => exact settled _ (h.beginCount v x hs) e
  | frameBoundaryEvent => exact event _ e
  | holdoverLimitExpiry => exact event _ e
  | voteWindowExpiry => exact event _ e
  | backwardStep => exact event _ e
  | forwardStep =>
    exact settled _ (h.takeOrNext _ (fun u hu => h.resolveHeads _ _ (h.frame_event u hu)) hs) e
  | actionDue => exact settled _ (h.takeOrNext _ (fun _ hu => h.resolveHeads _ _ hu) hs) e
  | pulseTrailingEdge => exact settled _ (h.takeOrNext _ (fun _ hu => h.resolveToPulse _ hu) hs) e
  | refinEdge =>
    refine settled _ ?_ e
    split
    · exact h.refin s hs
    · exact h.refin _ (h.beginCount _ _ hs)
  | lineLevelChange k v =>
    refine settled _ ?_ e
    unfold State.takeChangeIf
    repeat' split
    · exact h.changes s k hs
    · exact h.changes _ k (h.beginCount _ _ hs)
    · exact h.beginCount _ _ hs
  | responseChoice p => exact settled _ (h.selectFalls p hs) e
  | transactionEnd p mosi => exact settled _ (h.selectRises p mosi hs) e
  | noneRequest p id => exact request p (.noneRequest p id) e
  | unknownKind p k id b => exact request p (.unknownKind p k id b) e
  | openSession p id en x => exact request p (.openSession p id en x) e
  | closeSession p id => exact request p (.closeSession p id) e
  | statusRead p id => exact request p (.statusRead p id) e
  | timeRead p id => exact request p (.timeRead p id) e
  | actionPost p id l k w d lp sc nt tag => exact request p (.actionPost p id l k w d lp sc nt tag) e
  | actionCancel p id sel a => exact request p (.actionCancel p id sel a) e
  | actionQuery p id n => exact request p (.actionQuery p id n) e
  | lineClaim p id l => exact request p (.lineClaim p id l) e
  | lineRelease p id l => exact request p (.lineRelease p id l) e
  | lineConfig p id l m sf r eg v => exact request p (.lineConfig p id l m sf r eg v) e
  | lineDrive p id l v => exact request p (.lineDrive p id l v) e
  | lineQuery p id l => exact request p (.lineQuery p id l) e
  | cycleStage p id l a b f => exact request p (.cycleStage p id l a b f) e
  | subscribe p id x => exact request p (.subscribe p id x) e
  | journalRead p id m => exact request p (.journalRead p id m) e
  | noteRead p id => exact request p (.noteRead p id) e
  | noteAck p id n => exact request p (.noteAck p id n) e
  | planPropose p id f => exact request p (.planPropose p id f) e
  | planVote p id n d => exact request p (.planVote p id n d) e
  | planWithdraw p id => exact request p (.planWithdraw p id) e
  | planRead p id => exact request p (.planRead p id) e

/-- A step takes one command, or idles; the queue of commands is no part of what is kept. -/
theorem step (hpending : ∀ (s : State) cs, P s → P { s with pending := cs }) {t : State} (hs : P s)
    (e : step s = .next t) : P t := by
  unfold Machine.step at e
  split at e
  · rw [← Host.Outcome.next.inj e]; exact hs
  · next c rest _ => exact h.exec c (hpending s rest hs) e

end KeptByCommands
end Sys2Proof.Machine
end

section
/-! PROOFS. Properties that neither the time base, the sync unit, the plan unit nor the count in progress hold: what the
counts and their frame events do to them. -/

namespace Sys2Proof.Machine

/-- The operations outside the schedule and the journal, each of which keeps `P`. -/
structure KeptByBlocks (P : State → Prop) : Prop where
  post : ∀ s q b, P s → P (s.post q b)
  deferred : ∀ s q o r b, P s → P (s.answerDeferred q o r b)
  line : ∀ s k f, Line.KeepsStanding f → P s → P (s.modLine k f)
  plan : ∀ (s : State) x, P s → P { s with plan := x }
  time : ∀ s f, P s → P (s.modTime f)
  sync : ∀ s f, P s → P (s.modSync f)
  count : ∀ s f, P s → P (s.modCount f)
  lines_settle : ∀ s, P s → P s.settleLines
  pins : ∀ s v x, P s → P (s.drivePins v x)

namespace KeptByBlocks
variable {P : State → Prop} (h : KeptByBlocks P) {s : State}
include h

theorem noteSync (hs : P s) : P s.noteSync := by
  unfold State.noteSync
  split
  · exact hs
  · exact forPorts_keeps (fun q t ht => h.post t q _ ht) _ (h.count s (fun c => { c with syncPosted := true }) hs)

theorem boundaryLine (len : Phase) (a : Bool) (k : LineId) (hs : P s) : P (s.boundaryLine len a k) := by
  have program : ∀ (u : State) x y, P u → P (u.modLine k fun l => { l with active := x, staged := y }) := fun u x y =>
    h.line u k _ fun _ => ⟨rfl, rfl, rfl⟩
  unfold State.boundaryLine
  repeat' split
  · exact hs
  · exact State.reportForced_keeps h.post _ _ _ _ (program _ _ _ (State.answerStager_keeps h.deferred _ _ _ _ hs))
  · exact hs
  · exact State.reportForced_keeps h.post _ _ _ _ (h.line _ k _ (fun _ => ⟨rfl, rfl, rfl⟩) hs)
  · exact hs

theorem frameBoundary (hs : P s) : P s.frameBoundary := by
  have hclose : P s.boundarySyncClose := State.changeSync_keeps (P := P) (fun _ => h.noteSync) h.sync _ _ hs
  have hunits : P s.boundaryPlanAndSync := State.boundarySyncOpen_keeps (P := P) (fun _ => h.noteSync) h.sync _ _
    (State.boundaryPlan_keeps h.post h.deferred h.plan _ hclose)
  have htable : P (s.boundaryPlanAndSync.boundaryTable s.planApplies) := by
    unfold State.boundaryTable State.boundaryLines
    exact forLines_keeps (fun k t => h.boundaryLine _ _ k) _ hunits
  unfold State.frameBoundary State.boundaryTime
  exact h.time _ _ htable

/-- The frame event of a count, boundary or restart. -/
theorem takeFrameEvent (hs : P s) : P s.takeFrameEvent := by
  have hu : P (s.modCount fun c => { c with raised := false }) := h.count s _ hs
  unfold State.takeFrameEvent State.frameEvent State.frameRestart
  repeat' split
  · exact h.noteSync (h.time _ _ (h.sync _ _ hu))
  · exact h.noteSync (h.frameBoundary hu)
  · exact h.frameBoundary hu
  · exact h.frameBoundary hu
  · exact h.frameBoundary hu
  · exact hs

theorem takeRefin (hs : P s) : P s.takeRefin := by
  unfold State.takeRefin
  split
  · have hu : P (s.takeFrameEvent.modCount fun c => { c with refinEdge := false }) := h.count _ _ (h.takeFrameEvent hs)
    unfold State.handleEdge State.measureEdge
    repeat' split
    · exact hu
    · exact h.sync _ _ hu
    · exact h.sync _ _ hu
    · exact h.noteSync (h.sync _ _ hu)
  · exact hs

theorem moveCount (hs : P s) : P s.moveCount := by
  have advanced : ∀ (u : State) a m, P u → P (u.advanceCount a m) := fun u a m hu =>
    h.count (u.modTime fun _ => (u.time.advance a).1) (fun c => c.start m u.time.t (u.time.advance a).2) (h.time u _ hu)
  have stepped : ∀ tb f, P (((s.modTime fun _ => tb).modSync fun u => { u with stepOrder := none }).modCount f) :=
    fun tb f => h.count _ f (h.sync _ _ (h.time s _ hs))
  have performed : P (s.modTime fun tb => { tb with performed := tb.performed + 1 }) := h.time s _ hs
  unfold State.moveCount State.correctCount
  split
  · next o _ =>
    split
    · exact stepped { s.time with t := s.time.t - BitVec.ofInt 48 o.e, phase := 0, epoch := s.time.epoch + 1 }
        fun c => c.start .backward (s.time.t - BitVec.ofInt 48 o.e) true
    · exact stepped { s.time with
        t := s.time.t - BitVec.ofInt 48 o.e, phase := 0, frame := s.time.frame + 1, epoch := s.time.epoch + 1 }
        fun c => c.start (.forward o.state) s.time.t true
  · split
    · exact advanced s _ _ hs
    · dsimp only
      repeat' split
      · exact advanced _ _ _ (h.time s _ hs)
      · exact advanced _ _ _ (h.sync _ _ performed)
      · exact advanced _ _ _ (h.sync _ _ performed)

theorem sampleLines (x : LineSet) (hs : P s) : P (s.sampleLines x) := by
  have sampled : ∀ v, Line.KeepsStanding (Line.sampled v) := fun v l => by
    unfold Line.sampled
    repeat' split
    all_goals exact ⟨rfl, rfl, rfl⟩
  exact h.count _
    (fun _ => { s.count with changes := allLines.filterMap fun k => ((s.line k).change (pinLevel x k)).map fun e => (k, e) })
    (forLines_keeps (fun k t ht => h.line t k _ (sampled _) ht) s hs)

/-- The samples of a count at its beginning. -/
theorem sample (v : Level) (x : LineSet) (hs : P s) : P (((s.sampleRefin v).sampleLines x).drivePins v x).settleLines :=
  h.lines_settle _ (h.pins _ _ _ (h.sampleLines x (h.count (s.modSync fun u => { u with refinLast := some v })
    (fun c => { c with refinEdge := decide (s.sync.refinLast = some .low ∧ v = .high) }) (h.sync s _ hs))))

/-- The waiting level changes handed to the journal. -/
theorem takeChangesTo (hstore : ∀ s k e x, P s → P (s.evict.append k e x)) (k : LineId) (hs : P s) :
    P (s.takeChangesTo k) := by
  have considered : ∀ (u t : State) p, P t → P (State.considerReady u p t) := fun u t p ht => by
    rcases State.considerReady_cases t u p with e | ⟨_, _, e⟩ <;> rw [e]
    · exact ht
    · exact h.count _ _ (h.post t p _ ht)
  have captured : ∀ (u : State) j e, P u → P (u.capture j e) := fun u j e hu => by
    unfold State.capture
    split
    · exact hu
    · exact forPorts_keeps (fun p t => considered u t p) _ (hstore u j e _ hu)
  have taken : ∀ (l : List (LineId × Edge)) (u : State), P u → P (l.foldl State.takeChange u) := fun l => by
    induction l with
    | nil => exact fun _ hu => hu
    | cons x xs ih =>
      exact fun u hu => ih _ (captured _ x.1 x.2
        (h.line u x.1 (fun l => { l with last := some x.2.level }) (fun _ => ⟨rfl, rfl, rfl⟩) hu))
  exact taken _ _ (h.count s (fun c => { c with changes := c.changes.dropWhile fun x => decide (x.1 ≤ k) }) hs)

/-- With the operations of the schedule, the journal and the sessions, the commands are complete. -/
theorem commands (hsettle : ∀ s, P s → P s.settle) (hreset : ∀ s st, P s → P (s.resetAssert st))
    (hrelease : ∀ s, P s → P s.resetRelease)
    (hport : ∀ s p, P s → P ((if s.isOpen p then s.endSession p else s).modPort p Port.reset))
    (hlink : ∀ s p f, Port.KeepsSession f → P s → P (s.modPort p f))
    (hresolve : ∀ s x rest, s.schedule.entries = x :: rest → P s → P (s.resolveOne x))
    (hstore : ∀ s k e x, P s → P (s.evict.append k e x)) (hserve : ∀ s i, P s → P (s.serve i)) : KeptByCommands P where
  settle := hsettle
  reset := hreset
  release := hrelease
  port_reset := hport
  link := hlink
  frame_event _ := h.takeFrameEvent
  resolve s x rest hl _ := hresolve s x rest hl
  refin _ := h.takeRefin
  changes _ k := h.takeChangesTo hstore k
  move _ _ := h.moveCount
  sample _ v x := h.sample v x
  pins := h.pins
  serve := hserve

end KeptByBlocks
end Sys2Proof.Machine
end

section
/-! PROOFS. Entries, lines and sessions agree (R23, R52): every operation keeps it, so every step does. -/

namespace Sys2Proof.Machine
/-- A line's mode, owner and retain flag. -/
def Line.standing (l : Line) : Mode × Option PortId × Bool := (l.mode, l.owner, l.retain)

namespace State

/-! ### What the agreement rests on -/

/-- The standings and sessions of `t` are those of `s`, and its entries name the lines and owners of entries of `s`. -/
structure SameStanding (t s : State) : Prop where
  line : ∀ k, (t.line k).mode = (s.line k).mode ∧ (t.line k).owner = (s.line k).owner ∧
    (t.line k).retain = (s.line k).retain
  isOpen : ∀ p, s.isOpen p = true → t.isOpen p = true
  entries : ∀ x ∈ t.schedule.entries, ∃ y ∈ s.schedule.entries, x.line = y.line ∧ x.owner = y.owner ∧ x.notify = y.notify

variable {s t : State}

theorem SameStanding.standing (h : SameStanding t s) (k : LineId) : (t.line k).standing = (s.line k).standing := by
  obtain ⟨hm, ho, hr⟩ := h.line k
  unfold Line.standing
  rw [hm, ho, hr]

theorem SameStanding.ownersAgree (h : SameStanding t s) (hs : s.ownersAgree) : t.ownersAgree := by
  obtain ⟨hentries, hlines⟩ := hs
  refine ⟨fun x hx => ?_, fun k => ?_⟩
  · obtain ⟨y, hy, hl, ho, hn⟩ := h.entries x hx
    obtain ⟨hm, hown, _⟩ := h.line y.line
    rw [hl, ho, hn, hm, hown]
    exact hentries y hy
  · obtain ⟨hm, ho, hr⟩ := h.line k
    rw [hm, ho, hr]
    exact ⟨(hlines k).1, fun p hp => h.isOpen p ((hlines k).2 p hp)⟩

theorem sameStanding_of (hl : ∀ k, (t.line k).mode = (s.line k).mode ∧ (t.line k).owner = (s.line k).owner ∧
    (t.line k).retain = (s.line k).retain) (ho : ∀ p, t.isOpen p = s.isOpen p)
    (he : ∀ x ∈ t.schedule.entries, x ∈ s.schedule.entries) : SameStanding t s :=
  ⟨hl, fun p h => (ho p).trans h, fun x hx => ⟨x, he x hx, rfl, rfl, rfl⟩⟩

/-- States with the same lines, sessions and list. -/
theorem sameStanding_of_eq (hl : t.lines = s.lines) (ho : t.ports = s.ports) (he : t.schedule = s.schedule) :
    SameStanding t s := by
  refine sameStanding_of (fun k => ?_) (fun p => ?_) fun x hx => he ▸ hx
  · simp only [line, hl, and_self]
  · simp only [isOpen, port, ho]

theorem sameStanding_modLine (s : State) (k : LineId) {f : Line → Line} (hf : Line.KeepsStanding f) :
    SameStanding (s.modLine k f) s := by
  refine sameStanding_of (fun j => ?_) (fun p => rfl) fun x hx => hx
  rw [line_modLine]
  split
  · next h => rw [← h]; exact hf _
  · exact ⟨rfl, rfl, rfl⟩

theorem sameStanding_modPort (s : State) (p : PortId) {f : Port → Port} (hf : ∀ q, (f q).isOpen = q.isOpen) :
    SameStanding (s.modPort p f) s := by
  refine sameStanding_of (fun k => ⟨rfl, rfl, rfl⟩) (fun q => ?_) fun x hx => hx
  unfold isOpen
  rw [port_modPort]
  split
  · next h => rw [hf, h]
  · rfl

theorem ownersAgree_link (hs : s.ownersAgree) (p : PortId) {f : Port → Port} (hf : ∀ q, (f q).isOpen = q.isOpen) :
    (s.modPort p f).ownersAgree :=
  (sameStanding_modPort s p hf).ownersAgree hs

theorem ownersAgree_line (hs : s.ownersAgree) (k : LineId) {f : Line → Line} (hf : Line.KeepsStanding f) :
    (s.modLine k f).ownersAgree :=
  (sameStanding_modLine s k hf).ownersAgree hs

theorem atPhase_keepsStanding (ph : Phase) : Line.KeepsStanding (Line.atPhase ph) := fun l => by
  unfold Line.atPhase
  split <;> exact ⟨rfl, rfl, rfl⟩

theorem sameStanding_settleLines (s : State) : SameStanding s.settleLines s :=
  sameStanding_of (fun k => settleLines_line s k ▸ atPhase_keepsStanding s.time.phase (s.line k)) (fun _ => rfl)
    fun _ hx => hx

theorem sameStanding_settle (s : State) : SameStanding s.settle s :=
  sameStanding_of (fun k => settle_line s k ▸ atPhase_keepsStanding s.time.phase (s.line k)) (fun p => settle_isOpen s p)
    fun _ hx => hx

/-! ### Resolutions and session ends -/

theorem handLevel_standing (s : State) (j : LineId) (v : Level) (k : LineId) :
    ((s.handLevel j v).line k).standing = (s.line k).standing :=
  (sameStanding_modLine s j fun l => by split <;> exact ⟨rfl, rfl, rfl⟩).standing k

theorem trail_standing (s : State) (j : LineId) (kd : ActionKind) (k : LineId) :
    ((s.trail j kd).line k).standing = (s.line k).standing := by
  unfold trail
  split
  · rfl
  · exact handLevel_standing s _ _ k

/-- A resolution hands levels to lines; their standing is as before. -/
theorem resolveOne_standing (s : State) (x : Entry) (k : LineId) :
    ((s.resolveOne x).line k).standing = (s.line k).standing := by
  have hlead : ∀ (u : State) j kd, ((u.lead j kd).line k).standing = (u.line k).standing := fun u j kd =>
    handLevel_standing u j _ k
  unfold resolveOne resolveDue resolveJumped
  repeat' split
  all_goals simp only [resolve_line, startPulse_line, hlead, trail_standing]

theorem sameStanding_resolveOne {x : Entry} {rest : List Entry} (h : s.schedule.entries = x :: rest) :
    SameStanding (s.resolveOne x) s := by
  have hports : (s.resolveOne x).ports = s.ports :=
    resolveOne_same (·.ports) (fun _ _ _ => rfl) (fun _ _ _ => rfl) (fun _ _ => rfl) s x
  have hrest : ∀ y ∈ rest, y ∈ s.schedule.entries := fun y hy => h ▸ List.mem_cons_of_mem x hy
  refine ⟨fun k => ?_, fun p hp => ?_, fun y hy => ?_⟩
  · have h := resolveOne_standing s x k
    simpa only [Line.standing, Prod.mk.injEq] using h
  · unfold isOpen port at hp ⊢
    rw [hports]; exact hp
  · rcases resolveOne_entries x rest h with e | ⟨_, g, _, e⟩ <;> rw [e] at hy
    · exact ⟨y, hrest y hy, rfl, rfl, rfl⟩
    · rcases List.mem_cons.mp ((place_perm _ _ _).mem_iff.mp hy) with rfl | hy
      · exact ⟨x, h ▸ List.mem_cons_self, rfl, rfl, rfl⟩
      · exact ⟨y, hrest y hy, rfl, rfl, rfl⟩

/-- No line is the port's after its session end. -/
theorem afterSession_owner_ne (p : PortId) (l : Line) : (l.afterSession p).owner ≠ some p := by
  unfold Line.afterSession
  repeat' split
  · next h => exact h
  · exact nofun
  · exact nofun

theorem endSession_owner_ne (s : State) (p : PortId) (k : LineId) : ((s.endSession p).line k).owner ≠ some p := by
  rw [endSession_line]; exact afterSession_owner_ne p _

/-- A session end frees or retains the lines of the port, and removes or orphans the entries on them (R46, R47, R69, R70). -/
theorem ownersAgree_endSession (p : PortId) (hs : s.ownersAgree) : (s.endSession p).ownersAgree := by
  obtain ⟨hentries, hlines⟩ := hs
  refine ⟨fun x hx => ?_, fun k => ?_⟩
  · rw [endSession_schedule] at hx
    obtain ⟨y, hy, hxy⟩ := List.mem_filterMap.mp hx
    obtain ⟨hm, ho, hn⟩ := hentries y hy
    rw [endSession_line, entryAfterSession_line hxy]
    unfold entryAfterSession freedFor retainedFor at hxy
    unfold Line.afterSession
    repeat' split at hxy
    · cases hxy
    · next hf hr =>
      rw [← Option.some.inj hxy, if_neg (not_not.mpr hr.1), if_pos hr.2]
      exact ⟨hm, rfl, fun _ => rfl⟩
    · next hf hr =>
      have hother : (s.line y.line).owner ≠ some p := fun h => by
        by_cases hret : (s.line y.line).retain ∧ (s.line y.line).mode ≠ .off
        · exact hr ⟨h, hret⟩
        · exact hf ⟨h, hret⟩
      rw [← Option.some.inj hxy, if_pos hother]
      exact ⟨hm, ho, hn⟩
  · refine ⟨fun hnone => ?_, fun q hq => ?_⟩
    · rw [endSession_line] at hnone ⊢
      unfold Line.afterSession at hnone ⊢
      repeat' split
      · next h => rw [if_pos h] at hnone; exact (hlines k).1 hnone
      · next h => exact Or.inr h.1
      · exact Or.inl rfl
    · have hne := endSession_owner_ne s p k
      rw [endSession_line] at hq hne
      have hqp : p ≠ q := fun e => hne (e ▸ hq)
      have howner : (s.line k).owner = some q := by
        unfold Line.afterSession at hq
        repeat' split at hq
        · exact hq
        · cases hq
        · cases hq
      unfold isOpen
      rw [endSession_port, if_neg hqp]
      exact (hlines k).2 q howner

/-- A port whose session is closed owns no line; its link may close. -/
theorem ownersAgree_modPort (hs : s.ownersAgree) {p : PortId} (hp : ∀ k, (s.line k).owner ≠ some p) (f : Port → Port) :
    (s.modPort p f).ownersAgree := by
  refine ⟨hs.1, fun k => ⟨(hs.2 k).1, fun q hq => ?_⟩⟩
  have hqp : p ≠ q := fun e => hp k (e ▸ hq)
  unfold isOpen
  rw [port_modPort, if_neg hqp]
  exact (hs.2 k).2 q hq

theorem ownersAgree_reset (s : State) (st : Straps) : (s.resetAssert st).ownersAgree := by
  have hline : ∀ k, (s.resetAssert st).line k = powerOnLine := fun k =>
    show (Vector.replicate 16 powerOnLine)[k] = powerOnLine from Vector.getElem_replicate k.isLt
  refine ⟨nofun, fun k => ?_⟩
  rw [hline]
  exact ⟨fun _ => Or.inl rfl, nofun⟩

/-! ### Requests on lines and entries -/

theorem entriesOn_zero {k : LineId} (h : s.entriesOn k = 0) : ∀ x ∈ s.schedule.entries, x.line ≠ k := fun x hx => by
  have hx' := List.countP_eq_zero.mp h x hx
  rwa [decide_eq_true_eq] at hx'

/-- A line without entries takes another standing. -/
theorem ownersAgree_modLine (hs : s.ownersAgree) {k : LineId} (he : ∀ x ∈ s.schedule.entries, x.line ≠ k)
    (f : Line → Line) (hf : ((f (s.line k)).owner = none → (f (s.line k)).mode = .off ∨ (f (s.line k)).retain = true) ∧
      ∀ p, (f (s.line k)).owner = some p → s.isOpen p = true) : (s.modLine k f).ownersAgree := by
  refine ⟨fun x hx => ?_, fun j => ?_⟩
  · rw [line_modLine_ne s f (Ne.symm (he x hx))]
    exact hs.1 x hx
  · rw [line_modLine]
    split
    · exact hf
    · exact hs.2 j

theorem ownersAgree_claim (hs : s.ownersAgree) {p : PortId} {k : LineId} (hp : s.isOpen p = true)
    (ho : (s.line k).owner = none) (hr : (s.line k).retain = false) :
    (s.modLine k fun l => { l with owner := some p }).ownersAgree := by
  have hoff : (s.line k).mode = .off := ((hs.2 k).1 ho).resolve_right (by rw [hr]; exact nofun)
  refine ownersAgree_modLine hs (fun x hx e => ?_) _ ⟨nofun, fun q hq => Option.some.inj hq ▸ hp⟩
  have hm := (hs.1 x hx).1
  rw [e, hoff] at hm
  cases hm

/-- An entry of a claimed line, adopted (R48). -/
theorem ownersAgree_adopt (hs : s.ownersAgree) {p : PortId} {k : LineId} (hp : s.isOpen p = true)
    (ho : (s.line k).owner = none) : ((s.modLine k fun l => { l with owner := some p }).adopt k p).ownersAgree := by
  have hsame : (s.modLine k fun l => { l with owner := some p }).line k = { s.line k with owner := some p } :=
    line_modLine_same s k _
  have hother : ∀ j, k ≠ j → (s.modLine k fun l => { l with owner := some p }).line j = s.line j := fun _ hj =>
    line_modLine_ne s _ hj
  generalize hu : (s.modLine k fun l => { l with owner := some p }) = u at hsame hother
  have hentries : u.schedule = s.schedule := by rw [← hu]; rfl
  have hopen : ∀ q, u.isOpen q = s.isOpen q := fun q => by rw [← hu]; rfl
  refine ⟨fun x hx => ?_, fun j => ?_⟩
  · obtain ⟨y, hy, rfl⟩ := List.mem_map.mp hx
    obtain ⟨hm, hown, hn⟩ := hs.1 y (hentries ▸ hy)
    rw [adopt, line_setEntries]
    by_cases e : y.line = k
    · rw [if_pos ⟨e, by rw [hown, e, ho]⟩]
      rw [e] at hm ⊢
      rw [hsame]
      exact ⟨hm, rfl, nofun⟩
    · rw [if_neg fun h : _ ∧ _ => e h.1, hother _ (Ne.symm e)]
      exact ⟨hm, hown, hn⟩
  · rw [adopt, line_setEntries]
    show _ ∧ ∀ q, _ → u.isOpen q = true
    by_cases e : k = j
    · rw [← e, hsame]
      exact ⟨nofun, fun q hq => by rw [hopen, ← Option.some.inj hq]; exact hp⟩
    · rw [hother j e]
      exact ⟨(hs.2 j).1, fun q hq => (hopen q).trans ((hs.2 j).2 q hq)⟩

theorem sameStanding_acceptOpen (s : State) (p : PortId) (e : BitVec 16) (x : LineSet) :
    SameStanding (s.acceptOpen p e x) s := by
  refine ⟨fun _ => ⟨rfl, rfl, rfl⟩, fun q hq => ?_, fun y hy => ⟨y, hy, rfl, rfl, rfl⟩⟩
  show ((s.modPort p fun q => { q with isOpen := true, session := q.session + 1 }).port q).isOpen = true
  rw [port_modPort]
  split
  · rfl
  · exact hq

theorem ownersAgree_place (hs : s.ownersAgree) {p : PortId} {f : PostFields} (g : Option Pulse) (ref : TimeCount)
    (n : BitVec 32) (ho : (s.line f.line).owner = some p) (hm : (s.line f.line).mode = .outputEvent) :
    (s.numbered (place ref (f.entry p n g) s.schedule.entries)).ownersAgree := by
  refine ⟨fun x hx => ?_, hs.2⟩
  rcases List.mem_cons.mp ((place_perm _ _ _).mem_iff.mp hx) with rfl | hx
  · exact ⟨hm, ho.symm, nofun⟩
  · exact hs.1 x hx

end State

/-! ### Every operation -/

theorem ownersAgree_keptByBlocks : KeptByBlocks State.ownersAgree where
  post s q b := (State.sameStanding_of_eq (post_same (·.lines) (fun _ _ _ => rfl) s q b)
    (post_same (·.ports) (fun _ _ _ => rfl) s q b) (post_same (·.schedule) (fun _ _ _ => rfl) s q b)).ownersAgree
  deferred s q o r b hs := by
    rcases answerDeferred_cases s q o r b with e | ⟨_, _, e⟩ <;> rw [e]
    · exact hs
    · exact State.ownersAgree_link hs q fun _ => rfl
  line _ k _ hf hs := State.ownersAgree_line hs k hf
  plan _ _ hs := hs
  time _ _ hs := hs
  sync _ _ hs := hs
  count _ _ hs := hs
  lines_settle s := (State.sameStanding_settleLines s).ownersAgree
  pins _ _ _ hs := hs

theorem ownersAgree_keptByRequests (p : PortId) : KeptByRequests p State.ownersAgree State.ownersAgree where
  post := ownersAgree_keptByBlocks.post
  deferred := ownersAgree_keptByBlocks.deferred
  plan _ _ hs := hs
  dropChange _ _ hs := hs
  line := ownersAgree_keptByBlocks.line
  accept s e x hs := (State.sameStanding_acceptOpen s p e x).ownersAgree hs
  close _ hs := State.ownersAgree_endSession p hs
  enter_list _ _ g _ ho hm _ hs := State.ownersAgree_place hs g _ _ ho hm
  number _ hs := hs
  remove _ _ hs := ⟨fun x hx => hs.1 x (List.mem_of_mem_eraseP hx), hs.2⟩
  claim _ _ hp ho hr hs := State.ownersAgree_claim hs hp ho hr
  adopt _ _ hp ho hs := State.ownersAgree_adopt hs hp ho
  free _ _ _ he hs := State.ownersAgree_modLine hs (State.entriesOn_zero he) _ ⟨fun _ => Or.inl rfl, nofun⟩
  fields s k f ho hs := by
    refine ⟨fun x hx => ?_, fun j => ?_⟩
    · rw [State.line_modLine]
      split
      · next e => rw [e]; exact hs.1 x hx
      · exact hs.1 x hx
    · rw [State.line_modLine]
      split
      · exact ⟨fun hn => absurd (ho.symm.trans hn) nofun, (hs.2 k).2⟩
      · exact hs.2 j
  enter s k f ho he hs := by
    have howner : (((s.line k).withFields f).enter f).owner = (s.line k).owner := by
      unfold Line.enter Line.withFields
      split <;> rfl
    refine State.ownersAgree_modLine hs (State.entriesOn_zero he) _ ?_
    rw [howner]
    exact ⟨fun hn => absurd (ho.symm.trans hn) nofun, (hs.2 k).2⟩
  subscribe _ _ hs := hs
  read _ _ hs := hs
  acknowledge _ _ hs := hs
  respond _ _ _ _ _ hs := State.ownersAgree_link hs p fun _ => rfl
  hold _ _ _ _ hs := State.ownersAgree_link hs p fun _ => rfl
  post_after := ownersAgree_keptByBlocks.post

theorem ownersAgree_keptByCommands : KeptByCommands State.ownersAgree :=
  have hlink : ∀ (s : State) p f, Port.KeepsSession f → s.ownersAgree → (s.modPort p f).ownersAgree := fun _ p _ hf hs =>
    State.ownersAgree_link hs p fun q => (hf q).1
  ownersAgree_keptByBlocks.commands
    (hsettle := fun s => (State.sameStanding_settle s).ownersAgree)
    (hreset := fun s st _ => State.ownersAgree_reset s st)
    (hrelease := fun _ hs => hs)
    (hport := fun s p hs => by
      split
      · exact State.ownersAgree_modPort (State.ownersAgree_endSession p hs) (State.endSession_owner_ne s p) _
      · next hc => exact State.ownersAgree_modPort hs (fun k hk => hc ((hs.2 k).2 p hk)) _)
    (hlink := hlink)
    (hresolve := fun _ _ _ hl => (State.sameStanding_resolveOne hl).ownersAgree)
    (hstore := fun s k e x => (State.sameStanding_of_eq (s := s)
      (State.evict_same s (·.lines) (fun _ _ => rfl) fun _ _ _ => rfl)
      (State.evict_same s (·.ports) (fun _ _ => rfl) fun _ _ _ => rfl)
      (State.evict_same s (·.schedule) (fun _ _ => rfl) fun _ _ _ => rfl)).ownersAgree)
    (hserve := fun s i => serve_keeps hlink (fun _ p hs _ => ⟨_, hs, ownersAgree_keptByRequests p⟩) s i)

/-- Settles O60: the agreement of entries, lines and sessions is kept by every operation. -/
theorem stepKeepsOwnersInAgreement : Obligations.StepKeepsOwnersInAgreement :=
  fun _ _ hs e => ownersAgree_keptByCommands.step (fun _ _ h => h) hs e

end Sys2Proof.Machine
end

section
/-! PROOFS. Capacities and numbers (R19, R22, R75, R76, R143, R155): the schedule, the journal, the queues and the pending
requests, each for itself. -/

namespace Sys2Proof.Machine

/-! ### A list of numbered things -/

/-- The numbers of a list are distinct and not 0, and the counter stands at a number that is neither 0 nor in use. -/
def Numbering (ns : List (BitVec 32)) (c : BitVec 32) : Prop := ns.Nodup ∧ c ≠ 0 ∧ ∀ n ∈ ns, n ≠ 0 ∧ n ≠ c

theorem Numbering.sublist {ns ms : List (BitVec 32)} {c : BitVec 32} (h : Numbering ns c) (hs : ms.Sublist ns) :
    Numbering ms c :=
  ⟨h.1.sublist hs, h.2.1, fun n hn => h.2.2 n (hs.subset hn)⟩

/-- A counter moved on past the numbers of a list stands at one not in use. -/
theorem numbering_advance {ms : List (BitVec 32)} (c : BitVec 32) (hnodup : ms.Nodup) (h0 : ∀ n ∈ ms, n ≠ 0)
    (hl : ms.length + 1 < 2 ^ 32) : Numbering ms (advanceCounter ms c) := by
  have hfresh := advanceCounter_fresh ms c hl
  exact ⟨hnodup, fun e => hfresh (Or.inl e), fun n hn => ⟨h0 n hn, fun e => hfresh (Or.inr (e ▸ hn))⟩⟩

/-- A list of at most `cap` numbers; with `d`, numbered as R19 and R75 have it. -/
def Listed (d : Prop) (cap : Nat) (ns : List (BitVec 32)) (c : BitVec 32) : Prop :=
  ns.length ≤ cap ∧ (d → Numbering ns c)

namespace Listed
variable {d : Prop} {cap : Nat} {ns ms : List (BitVec 32)} {c : BitVec 32}

theorem empty : Listed d cap [] 1 :=
  ⟨Nat.zero_le _, fun _ => ⟨List.nodup_nil, by decide, nofun⟩⟩

theorem sublist (h : Listed d cap ns c) (hs : ms.Sublist ns) : Listed d cap ms c :=
  ⟨hs.length_le.trans h.1, fun hd => (h.2 hd).sublist hs⟩

theorem perm (h : Listed d cap ns c) (hp : ms.Perm ns) : Listed d cap ms c := by
  refine ⟨hp.length_eq ▸ h.1, fun hd => ?_⟩
  obtain ⟨hnodup, h0, hn⟩ := h.2 hd
  exact ⟨hp.nodup_iff.mpr hnodup, h0, fun n hm => hn n (hp.mem_iff.mp hm)⟩

/-- The counter moved on past the numbers in use. -/
theorem bump (h : Listed d cap ns c) (hcap : cap + 1 < 2 ^ 32) : Listed d cap ns (advanceCounter ns c) := by
  refine ⟨h.1, fun hd => ?_⟩
  obtain ⟨hnodup, _, hn⟩ := h.2 hd
  exact numbering_advance c hnodup (fun n hm => (hn n hm).1) (by have := h.1; omega)

/-- A new member takes the counter's number. -/
theorem insert (h : Listed d cap ns c) (hroom : ns.length < cap) (hp : ms.Perm (c :: ns)) (hcap : cap + 1 < 2 ^ 32) :
    Listed d cap ms (advanceCounter ms c) := by
  have hlen : ms.length = ns.length + 1 := hp.length_eq
  refine ⟨by omega, fun hd => ?_⟩
  obtain ⟨hnodup, h0, hn⟩ := h.2 hd
  refine numbering_advance c (hp.nodup_iff.mpr (List.nodup_cons.mpr ⟨fun hc => (hn c hc).2 rfl, hnodup⟩)) ?_ (by omega)
  intro n hm
  rcases List.mem_cons.mp (hp.mem_iff.mp hm) with rfl | hm
  · exact h0
  · exact (hn n hm).1

end Listed

/-! ### Properties of one block that the others leave alone -/

/-- A property of a value that queues, ports, lines and the other units leave as it is. -/
theorem keptByBlocks_of_same {α : Type} (g : State → α) (Q : α → Prop) (hq : ∀ (s : State) p f, g (s.modQueue p f) = g s)
    (hp : ∀ (s : State) p f, g (s.modPort p f) = g s) (hl : ∀ (s : State) k f, g (s.modLine k f) = g s)
    (hplan : ∀ (s : State) x, g { s with plan := x } = g s) (ht : ∀ (s : State) f, g (s.modTime f) = g s)
    (hs : ∀ (s : State) f, g (s.modSync f) = g s) (hc : ∀ (s : State) f, g (s.modCount f) = g s)
    (hlines : ∀ s : State, g s.settleLines = g s) (hpins : ∀ (s : State) v x, g (s.drivePins v x) = g s) :
    KeptByBlocks fun s => Q (g s) where
  post s q b h := (post_same g hq s q b).symm ▸ h
  deferred s q o r b h := (State.answerDeferred_same s g hp q o r b).symm ▸ h
  line s k f _ h := (hl s k f).symm ▸ h
  plan s x h := (hplan s x).symm ▸ h
  time s f h := (ht s f).symm ▸ h
  sync s f h := (hs s f).symm ▸ h
  count s f h := (hc s f).symm ▸ h
  lines_settle s h := (hlines s).symm ▸ h
  pins s v x h := (hpins s v x).symm ▸ h

/-! ### What session ends and adoptions keep of the entries -/

/-- Entries leave the list at a session end, or lose their owner and notify flag. -/
theorem endSession_entries_sublist {α : Type} {g : Entry → α}
    (hg : ∀ x : Entry, g { x with owner := none, notify := false } = g x) (s : State) (p : PortId) :
    ((s.endSession p).schedule.entries.map g).Sublist (s.schedule.entries.map g) := by
  have horphan :
      (g ∘ fun x : Entry => if s.retainedFor p x.line then { x with owner := none, notify := false } else x) = g :=
    funext fun x => by
      simp only [Function.comp]
      split
      · exact hg x
      · rfl
  rw [State.endSession_schedule, filterMap_entryAfterSession, List.map_map, horphan]
  exact List.filter_sublist.map _

/-- Adoption changes owners alone. -/
theorem adopt_entries_map {α : Type} {g : Entry → α} (hg : ∀ (x : Entry) o, g { x with owner := o } = g x) (s : State)
    (k : LineId) (p : PortId) : (s.adopt k p).schedule.entries.map g = s.schedule.entries.map g := by
  refine List.map_map.trans (List.map_congr_left fun x _ => ?_)
  simp only [Function.comp]
  split
  · exact hg x _
  · rfl

/-! ### The schedule (R19, R22) -/

/-- The list of the schedule within its capacity and, with `d`, numbered. -/
def scheduleListed (d : Prop) (x : Schedule) : Prop := Listed d 128 (x.entries.map (·.number)) x.counter

section
variable {d : Prop} {s : State}

theorem scheduleListed_sublist {es : List Entry} (h : scheduleListed d s.schedule)
    (hs : (es.map (·.number)).Sublist (s.schedule.entries.map (·.number))) :
    scheduleListed d (s.setEntries es).schedule :=
  Listed.sublist h hs

theorem scheduleListed_resolveOne {x : Entry} {rest : List Entry} (hl : s.schedule.entries = x :: rest)
    (h : scheduleListed d s.schedule) : scheduleListed d (s.resolveOne x).schedule := by
  unfold scheduleListed at h ⊢
  rw [State.resolveOne_counter]
  rw [hl, List.map_cons] at h
  rcases State.resolveOne_entries x rest hl with e | ⟨_, g, _, e⟩ <;> rw [e]
  · exact h.sublist (List.sublist_cons_self _ _)
  · exact h.perm ((place_perm _ _ _).map (·.number))

theorem scheduleListed_endSession (p : PortId) (h : scheduleListed d s.schedule) :
    scheduleListed d (s.endSession p).schedule := by
  have hcounter : (s.endSession p).schedule.counter = s.schedule.counter := by rw [State.endSession_schedule]
  unfold scheduleListed
  rw [hcounter]
  exact h.sublist (endSession_entries_sublist (fun _ => rfl) s p)

/-- A passed room check leaves an entry free (R26). -/
theorem room_of_roomCheck {p : PortId} (h : s.roomCheck p = none) : s.schedule.entries.length < 128 := by
  unfold State.roomCheck at h
  repeat' split at h
  · cases h
  · cases h
  · next hc => exact Nat.not_le.mp hc

theorem scheduleListed_place {p : PortId} (f : PostFields) (g : Option Pulse) (hr : s.roomCheck p = none)
    (h : scheduleListed d s.schedule) :
    scheduleListed d (s.numbered (place s.count.ref (f.entry p s.schedule.counter g) s.schedule.entries)).schedule :=
  Listed.insert h (by rw [List.length_map]; exact room_of_roomCheck hr) ((place_perm _ _ _).map (·.number)) (by decide)

theorem scheduleListed_adopt (k : LineId) (p : PortId) (h : scheduleListed d s.schedule) :
    scheduleListed d (s.adopt k p).schedule :=
  Listed.perm h (List.Perm.of_eq (adopt_entries_map (fun _ _ => rfl) s k p))

end

theorem scheduleListed_keptByBlocks (d : Prop) : KeptByBlocks fun s => scheduleListed d s.schedule :=
  keptByBlocks_of_same (·.schedule) _ (fun _ _ _ => rfl) (fun _ _ _ => rfl) (fun _ _ _ => rfl) (fun _ _ => rfl)
    (fun _ _ => rfl) (fun _ _ => rfl) (fun _ _ => rfl) (fun _ => rfl) (fun _ _ _ => rfl)

theorem scheduleListed_keptByRequests (d : Prop) (p : PortId) :
    KeptByRequests p (fun s => scheduleListed d s.schedule) fun s => scheduleListed d s.schedule where
  post := (scheduleListed_keptByBlocks d).post
  deferred := (scheduleListed_keptByBlocks d).deferred
  plan := (scheduleListed_keptByBlocks d).plan
  dropChange _ _ h := h
  line := (scheduleListed_keptByBlocks d).line
  accept _ _ _ h := h
  close _ h := scheduleListed_endSession p h
  enter_list _ f g hr _ _ _ h := scheduleListed_place f g hr h
  number _ h := Listed.bump h (by decide)
  remove _ _ h := scheduleListed_sublist h (List.eraseP_sublist.map _)
  claim _ _ _ _ _ h := h
  adopt _ k _ _ h := scheduleListed_adopt k p h
  free _ _ _ _ h := h
  fields _ _ _ _ h := h
  enter _ _ _ _ _ h := h
  subscribe _ _ h := h
  read _ _ h := h
  acknowledge _ _ h := h
  respond _ _ _ _ _ h := h
  hold _ _ _ _ h := h
  post_after := (scheduleListed_keptByBlocks d).post

theorem scheduleListed_keptByCommands (d : Prop) : KeptByCommands fun s => scheduleListed d s.schedule :=
  (scheduleListed_keptByBlocks d).commands
    (hsettle := fun _ h => h)
    (hreset := fun _ _ _ => Listed.empty)
    (hrelease := fun _ h => h)
    (hport := fun s p h => by
      show scheduleListed d (if s.isOpen p then s.endSession p else s).schedule
      split
      · exact scheduleListed_endSession p h
      · exact h)
    (hlink := fun _ _ _ _ h => h)
    (hresolve := fun _ _ _ hl => scheduleListed_resolveOne hl)
    (hstore := fun s _ _ _ h => (State.evict_same s (·.schedule) (fun _ _ => rfl) fun _ _ _ => rfl).symm ▸ h)
    (hserve := serve_keeps (fun _ _ _ _ h => h) fun _ p h _ => ⟨_, h, scheduleListed_keptByRequests d p⟩)

/-! ### The journal (R75, R76) -/

/-- The list of the journal within its capacity and, with `d`, numbered. -/
def journalListed (d : Prop) (x : Journal) : Prop := Listed d 256 (x.records.map (·.sequence)) x.counter

section
variable {d : Prop} {s : State}

/-- Records kept with changed reader sets. -/
theorem journalListed_filter_map {f : Record → Record} (hf : ∀ r, (f r).sequence = r.sequence) (keep : Record → Bool)
    (h : journalListed d s.journal) :
    Listed d 256 (((s.journal.records.map f).filter keep).map (·.sequence)) s.journal.counter := by
  have hsequence : ((fun r : Record => r.sequence) ∘ f) = fun r => r.sequence := funext hf
  refine Listed.sublist h ?_
  have hfilter := (List.filter_sublist (p := keep) (l := s.journal.records.map f)).map (·.sequence)
  rwa [List.map_map, hsequence] at hfilter

theorem evict_records (s : State) : s.evict.journal.records =
    if s.journal.records.length < 256 then s.journal.records else s.journal.records.tail := by
  unfold State.evict
  split
  · next h => rw [if_pos (show _ < 256 from h)]
  · next h =>
    rw [if_neg (show ¬_ < 256 from h)]
    split
    · next e => rw [e]; rfl
    · next r rest e =>
      rw [e]
      exact forPorts_same (·.journal.records) (fun p t => by split <;> rfl) _

/-- A capture stored after an eviction where the list was full (R81). -/
theorem journalListed_store (k : LineId) (e : Edge) (x : PortSet) (h : journalListed d s.journal) :
    journalListed d (s.evict.append k e x).journal := by
  have hcounter : s.evict.journal.counter = s.journal.counter :=
    State.evict_same s (·.journal.counter) (fun _ _ => rfl) fun _ _ _ => rfl
  have hsub : s.evict.journal.records.Sublist s.journal.records := by
    rw [evict_records]
    split
    · exact List.Sublist.refl _
    · exact List.tail_sublist _
  have hroom : s.evict.journal.records.length < 256 := by
    have hcap := h.1
    rw [List.length_map] at hcap
    rw [evict_records]
    split
    · assumption
    · rw [List.length_tail]; omega
  have hevict : journalListed d s.evict.journal := by
    unfold journalListed
    rw [hcounter]
    exact Listed.sublist h (hsub.map _)
  refine Listed.insert hevict (by rw [List.length_map]; exact hroom) ?_ (by decide)
  have happend : (s.evict.append k e x).journal.records.map (·.sequence) =
      s.evict.journal.records.map (·.sequence) ++ [s.evict.journal.counter] := List.map_append
  rw [happend]
  exact List.perm_append_singleton _ _

theorem journalListed_endSession (p : PortId) (h : journalListed d s.journal) :
    journalListed d (s.endSession p).journal := by
  rw [State.endSession_journal]
  exact journalListed_filter_map (f := fun r => { r with readers := withoutPort r.readers p }) (fun _ => rfl) _ h

theorem journalListed_read (p : PortId) (sent : List (BitVec 32)) (h : journalListed d s.journal) :
    journalListed d ((s.setMissed p 0).setRecords (dropReader p sent s.journal.records)).journal :=
  journalListed_filter_map (fun r => by split <;> rfl) _ h

theorem journalListed_settle (h : journalListed d s.journal) : journalListed d s.settle.journal := by
  have hsequence : ((fun r : Record => r.sequence) ∘ Record.refresh s) = fun r => r.sequence :=
    funext fun r => by simp only [Function.comp, Record.refresh_eq]
  unfold journalListed
  rw [State.settle_journal, List.map_map, hsequence]
  exact h

end

theorem journalListed_keptByBlocks (d : Prop) : KeptByBlocks fun s => journalListed d s.journal :=
  keptByBlocks_of_same (·.journal) _ (fun _ _ _ => rfl) (fun _ _ _ => rfl) (fun _ _ _ => rfl) (fun _ _ => rfl)
    (fun _ _ => rfl) (fun _ _ => rfl) (fun _ _ => rfl) (fun _ => rfl) (fun _ _ _ => rfl)

theorem journalListed_keptByRequests (d : Prop) (p : PortId) :
    KeptByRequests p (fun s => journalListed d s.journal) fun s => journalListed d s.journal where
  post := (journalListed_keptByBlocks d).post
  deferred := (journalListed_keptByBlocks d).deferred
  plan := (journalListed_keptByBlocks d).plan
  dropChange _ _ h := h
  line := (journalListed_keptByBlocks d).line
  accept _ _ _ h := h
  close _ h := journalListed_endSession p h
  enter_list _ _ _ _ _ _ _ h := h
  number _ h := h
  remove _ _ h := h
  claim _ _ _ _ _ h := h
  adopt _ _ _ _ h := h
  free _ _ _ _ h := h
  fields _ _ _ _ h := h
  enter _ _ _ _ _ h := h
  subscribe _ _ h := h
  read _ sent h := journalListed_read p sent h
  acknowledge _ _ h := h
  respond _ _ _ _ _ h := h
  hold _ _ _ _ h := h
  post_after := (journalListed_keptByBlocks d).post

theorem journalListed_keptByCommands (d : Prop) : KeptByCommands fun s => journalListed d s.journal :=
  (journalListed_keptByBlocks d).commands
    (hsettle := fun _ => journalListed_settle)
    (hreset := fun _ _ _ => Listed.empty)
    (hrelease := fun _ h => h)
    (hport := fun s p h => by
      show journalListed d (if s.isOpen p then s.endSession p else s).journal
      split
      · exact journalListed_endSession p h
      · exact h)
    (hlink := fun _ _ _ _ h => h)
    (hresolve := fun s x _ _ h =>
      (State.resolveOne_same (·.journal) (fun _ _ _ => rfl) (fun _ _ _ => rfl) (fun _ _ => rfl) s x).symm ▸ h)
    (hstore := fun _ k e x => journalListed_store k e x)
    (hserve := serve_keeps (fun _ _ _ _ h => h) fun _ p h _ => ⟨_, h, journalListed_keptByRequests d p⟩)

end Sys2Proof.Machine
end

section
/-! PROOFS. The queues and the pending requests within their capacities (R143, R155), and with the schedule and the journal
what every step keeps. -/

namespace Sys2Proof.Machine

/-! ### The queues (R155) -/

/-- Every queue holds at most 15 ordinary notifications. -/
def State.queuesShort (s : State) : Prop := ∀ p, (s.queue p).entries.length ≤ 15

/-- A change of a queue that keeps it within its capacity. -/
def NoteQueue.KeepsShort (f : NoteQueue → NoteQueue) : Prop := ∀ q, q.entries.length ≤ 15 → (f q).entries.length ≤ 15

theorem accept_keepsShort (n : Nat) (b : NoteBody) : NoteQueue.KeepsShort (NoteQueue.accept n b) := fun q hq => by
  unfold NoteQueue.accept
  repeat' split
  · show (q.entries.map _).length ≤ 15
    rw [List.length_map]; exact hq
  · next hroom =>
    show (q.entries ++ [_]).length ≤ 15
    rw [List.length_append]
    exact hroom
  · exact hq

namespace State
variable {s : State}

theorem queuesShort_modQueue (h : s.queuesShort) (p : PortId) {f : NoteQueue → NoteQueue} (hf : NoteQueue.KeepsShort f) :
    (s.modQueue p f).queuesShort := fun q => by
  rw [queue_modQueue]
  split
  · exact hf _ (h p)
  · exact h q

theorem queuesShort_post (h : s.queuesShort) (p : PortId) (b : NoteBody) : (s.post p b).queuesShort := by
  rcases post_cases s p b with e | e <;> rw [e]
  · exact h
  · exact queuesShort_modQueue h p (accept_keepsShort _ b)

theorem queuesShort_leaveInput (h : s.queuesShort) (k : LineId) : (s.leaveInput k).queuesShort := by
  unfold leaveInput stopInput
  split
  · refine forPorts_keeps (P := queuesShort) (fun p t ht => ?_) s h
    split
    · exact queuesShort_post ht p _
    · exact ht
  · exact h

theorem queuesShort_linesSessionEnd (h : s.queuesShort) (p : PortId) : (s.linesSessionEnd p).queuesShort := by
  refine forLines_keeps (P := queuesShort) (fun k t ht => ?_) s h
  unfold lineSessionEnd
  repeat' split
  · exact ht
  · exact ht
  · exact queuesShort_leaveInput (s := t.orphanResolve k) ht k

theorem queuesShort_planSessionEnd (h : s.queuesShort) (p : PortId) : (s.planSessionEnd p).queuesShort := by
  unfold planSessionEnd proposerEnds
  repeat' split
  · exact h
  · exact postSet_keeps (P := queuesShort) (fun _ p b ht => queuesShort_post ht p b) s _ _ h
  · exact h
  · exact h
  · exact h

theorem queuesShort_endSession (h : s.queuesShort) (p : PortId) : (s.endSession p).queuesShort := by
  have hlink : (s.linkEnded p).queuesShort :=
    queuesShort_modQueue (s := s.modPort p Port.ended) h p fun _ _ => Nat.zero_le _
  have hlines := queuesShort_linesSessionEnd hlink p
  rw [endSession_eq]
  generalize (s.linkEnded p).linesSessionEnd p = u at hlines ⊢
  exact queuesShort_planSessionEnd (s := u.journalSessionEnd p) hlines p

theorem queuesShort_settle (h : s.queuesShort) : s.settle.queuesShort := fun p => by
  rw [settle_queue]
  show ((s.queue p).entries.map _).length ≤ 15
  rw [List.length_map]
  exact h p

theorem queuesShort_reset (s : State) (st : Straps) : (s.resetAssert st).queuesShort := fun p => by
  have hqueue : (s.resetAssert st).queue p = powerOnNotes :=
    show (Vector.replicate 4 powerOnNotes)[p] = powerOnNotes from Vector.getElem_replicate p.isLt
  rw [hqueue]
  exact Nat.zero_le _

end State

theorem queuesShort_keptByBlocks : KeptByBlocks State.queuesShort where
  post _ q b h := State.queuesShort_post h q b
  deferred s q o r b h := fun p =>
    (State.answerDeferred_same s (·.queue p) (fun _ _ _ => rfl) q o r b).symm ▸ h p
  line _ _ _ _ h := h
  plan _ _ h := h
  time _ _ h := h
  sync _ _ h := h
  count _ _ h := h
  lines_settle _ h := h
  pins _ _ _ h := h

theorem queuesShort_keptByRequests (p : PortId) : KeptByRequests p State.queuesShort State.queuesShort where
  post := queuesShort_keptByBlocks.post
  deferred := queuesShort_keptByBlocks.deferred
  plan := queuesShort_keptByBlocks.plan
  dropChange _ _ h := h
  line _ _ _ _ h := h
  accept s e _ h := State.queuesShort_modQueue
    (s := s.modPort p fun q => { q with isOpen := true, session := q.session + 1 }) h p
    (f := fun q => { q with enable := e.extractLsb' 0 8 }) fun _ hq => hq
  close _ h := State.queuesShort_endSession h p
  enter_list _ _ _ _ _ _ _ h := h
  number _ h := h
  remove _ _ h := h
  claim _ _ _ _ _ h := h
  adopt _ _ _ _ h := h
  free _ _ _ _ h := h
  fields _ _ _ _ h := h
  enter _ _ _ _ _ h := h
  subscribe _ _ h := h
  read _ _ h := h
  acknowledge _ _ h := State.queuesShort_modQueue h p fun _ hq => (List.length_filter_le _ _).trans hq
  respond _ _ _ _ _ h := h
  hold _ _ _ _ h := h
  post_after := queuesShort_keptByBlocks.post

theorem queuesShort_keptByCommands : KeptByCommands State.queuesShort :=
  queuesShort_keptByBlocks.commands
    (hsettle := fun _ => State.queuesShort_settle)
    (hreset := fun s st _ => State.queuesShort_reset s st)
    (hrelease := fun _ h => h)
    (hport := fun s p h => by
      show State.queuesShort (if s.isOpen p then s.endSession p else s)
      split
      · exact State.queuesShort_endSession h p
      · exact h)
    (hlink := fun _ _ _ _ h => h)
    (hresolve := fun s x _ _ h => State.resolveOne_keeps (P := State.queuesShort)
      (fun _ q _ _ _ _ _ _ ht => State.queuesShort_post ht q _) (fun _ _ _ ht => ht) (fun _ _ ht => ht) s x h)
    (hstore := fun s _ _ _ h => fun p =>
      (State.evict_same s (·.queue p) (fun _ _ => rfl) fun _ _ _ => rfl).symm ▸ h p)
    (hserve := serve_keeps (fun _ _ _ _ h => h) fun _ p h _ => ⟨_, h, queuesShort_keptByRequests p⟩)

/-! ### The pending requests (R143) -/

/-- Every port has at most 8 pending requests. -/
def State.pendingShort (s : State) : Prop := ∀ p, s.pendingCount p ≤ 8

/-- So it is, and port `p` has room for one more. -/
def State.pendingRoom (p : PortId) (s : State) : Prop := s.pendingShort ∧ s.pendingCount p < 8

namespace State
variable {s t : State}

/-- States with no more pending at any port. -/
theorem pendingShort_mono (h : ∀ p, t.pendingCount p ≤ s.pendingCount p) (hs : s.pendingShort) : t.pendingShort :=
  fun p => (h p).trans (hs p)

theorem pendingRoom_mono {p : PortId} (h : ∀ p, t.pendingCount p ≤ s.pendingCount p) (hs : s.pendingRoom p) :
    t.pendingRoom p :=
  ⟨pendingShort_mono h hs.1, Nat.lt_of_le_of_lt (h p) hs.2⟩

theorem pendingCount_post (s : State) (p : PortId) (b : NoteBody) (q : PortId) :
    (s.post p b).pendingCount q = s.pendingCount q :=
  post_same (·.pendingCount q) (fun _ _ _ => rfl) s p b

theorem pendingCount_modPort_le (s : State) (p : PortId) {f : Port → Port}
    (hf : ∀ r, (f r).responses.length + (f r).deferred.length ≤ r.responses.length + r.deferred.length) (q : PortId) :
    (s.modPort p f).pendingCount q ≤ s.pendingCount q := by
  unfold pendingCount
  rw [port_modPort]
  split
  · next h => rw [← h]; exact hf _
  · exact Nat.le_refl _

theorem pendingCount_endSession_le (s : State) (p q : PortId) : (s.endSession p).pendingCount q ≤ s.pendingCount q := by
  unfold pendingCount
  rw [endSession_port]
  split
  · exact Nat.zero_le _
  · exact Nat.le_refl _

/-- A request with room gets its answer, or is held. -/
theorem pendingShort_modPort {p : PortId} {f : Port → Port}
    (hf : ∀ r, (f r).responses.length + (f r).deferred.length = r.responses.length + r.deferred.length + 1)
    (hs : s.pendingRoom p) : (s.modPort p f).pendingShort := fun q => by
  have hroom := hs.2
  unfold pendingCount at hroom ⊢
  rw [port_modPort]
  split
  · rw [hf]; exact hroom
  · exact hs.1 q

theorem pendingShort_reset (s : State) (st : Straps) : (s.resetAssert st).pendingShort := fun p => by
  have hport : (s.resetAssert st).port p = powerOnPort (s.port p).prstLow (s.port p).csLow := mapVector_get _ _ p
  unfold pendingCount
  rw [hport]
  exact Nat.zero_le _

end State

theorem pendingShort_keptByBlocks : KeptByBlocks State.pendingShort where
  post s q b := State.pendingShort_mono fun p => (State.pendingCount_post s q b p).le
  deferred s q o r b := State.pendingShort_mono fun p => (answerDeferred_pendingCount s q o r b p).le
  line _ _ _ _ h := h
  plan _ _ h := h
  time _ _ h := h
  sync _ _ h := h
  count _ _ h := h
  lines_settle _ h := h
  pins _ _ _ h := h

theorem pendingRoom_keptByRequests (p : PortId) : KeptByRequests p (State.pendingRoom p) State.pendingShort where
  post s q b := State.pendingRoom_mono fun r => (State.pendingCount_post s q b r).le
  deferred s q o r b := State.pendingRoom_mono fun i => (answerDeferred_pendingCount s q o r b i).le
  plan _ _ h := h
  dropChange _ _ h := h
  line _ _ _ _ h := h
  accept s _ _ := State.pendingRoom_mono fun q =>
    State.pendingCount_modPort_le s p (f := fun q => { q with isOpen := true, session := q.session + 1 })
      (fun _ => Nat.le_refl _) q
  close s := State.pendingRoom_mono (State.pendingCount_endSession_le s p)
  enter_list _ _ _ _ _ _ _ h := h
  number _ h := h
  remove _ _ h := h
  claim _ _ _ _ _ h := h
  adopt _ _ _ _ h := h
  free _ _ _ _ h := h
  fields _ _ _ _ h := h
  enter _ _ _ _ _ h := h
  subscribe _ _ h := h
  read _ _ h := h
  acknowledge _ _ h := h
  respond _ _ _ _ _ := State.pendingShort_modPort fun q => by
    dsimp only
    rw [List.length_append, List.length_singleton]; omega
  hold _ _ _ _ := State.pendingShort_modPort fun q => by
    dsimp only
    rw [List.length_append, List.length_singleton]; omega
  post_after := pendingShort_keptByBlocks.post

theorem pendingShort_keptByCommands : KeptByCommands State.pendingShort :=
  have hlink : ∀ (s : State) p f, Port.KeepsSession f → s.pendingShort → (s.modPort p f).pendingShort := fun s p f hf =>
    State.pendingShort_mono (State.pendingCount_modPort_le s p fun q => by
      obtain ⟨_, hdeferred, hresponses⟩ := hf q
      rw [hdeferred]
      exact Nat.add_le_add_right hresponses _)
  pendingShort_keptByBlocks.commands
    (hsettle := fun s => State.pendingShort_mono fun p => (State.settle_pendingCount s p).le)
    (hreset := fun s st _ => State.pendingShort_reset s st)
    (hrelease := fun _ h => h)
    (hport := fun s p h => by
      refine State.pendingShort_mono (State.pendingCount_modPort_le _ p fun _ => Nat.zero_le _) ?_
      split
      · exact State.pendingShort_mono (State.pendingCount_endSession_le s p) h
      · exact h)
    (hlink := hlink)
    (hresolve := fun s x _ _ h => fun p =>
      (State.resolveOne_same (·.pendingCount p) (fun _ _ _ => rfl) (fun _ _ _ => rfl) (fun _ _ => rfl) s x).symm ▸ h p)
    (hstore := fun s _ _ _ h => fun p =>
      (State.evict_same s (·.pendingCount p) (fun _ _ => rfl) fun _ _ _ => rfl).symm ▸ h p)
    (hserve := serve_keeps hlink fun _ p h hroom => ⟨_, ⟨h, hroom⟩, pendingRoom_keptByRequests p⟩)

/-! ### The capacities and the numbers -/

/-- The lists within their capacities and, with `d`, numbered; the queues and the pending requests within theirs. -/
def State.blocksWithin (d : Prop) (s : State) : Prop :=
  scheduleListed d s.schedule ∧ journalListed d s.journal ∧ s.queuesShort ∧ s.pendingShort

theorem blocksWithin_iff (d : Prop) (s : State) : s.blocksWithin d ↔ s.withinCapacity ∧ (d → s.numbersDistinct) := by
  unfold State.blocksWithin scheduleListed journalListed Listed Numbering State.withinCapacity State.numbersDistinct
    State.queuesShort State.pendingShort
  simp only [List.length_map, List.forall_mem_map, forall_and]
  tauto

theorem blocksWithin_step {d : Prop} {s t : State} (h : s.blocksWithin d) (e : step s = .next t) : t.blocksWithin d := by
  obtain ⟨hschedule, hjournal, hqueues, hpending⟩ := h
  exact ⟨(scheduleListed_keptByCommands d).step (fun _ _ h => h) hschedule e,
    (journalListed_keptByCommands d).step (fun _ _ h => h) hjournal e,
    queuesShort_keptByCommands.step (fun _ _ h => h) hqueues e,
    pendingShort_keptByCommands.step (fun _ _ h => h) hpending e⟩

/-- Settles O58, block by block: the capacities alone, and the capacities with the numbers. -/
theorem stepKeepsCapacities : Obligations.StepKeepsCapacities := by
  refine ⟨fun s t hc e => ?_, fun s t hc hn e => ?_⟩
  · exact ((blocksWithin_iff False t).mp (blocksWithin_step ((blocksWithin_iff False s).mpr ⟨hc, False.elim⟩) e)).1
  · exact ((blocksWithin_iff True t).mp (blocksWithin_step ((blocksWithin_iff True s).mpr ⟨hc, fun _ => hn⟩) e)).2 trivial

end Sys2Proof.Machine
end

section
/-! PROOFS. The order of the list (R20, R21, R26, R33, R38 to R40): what it rests on, and what places and removes entries. -/

namespace Sys2Proof.Machine

/-! ### What the order rests on -/

/-- The values the order of the list speaks of, beside the frame. -/
structure ListOrder where
  entries : List Entry
  ref : TimeCount
  raised : Bool
  t : TimeCount
  phase : Phase
  len : Phase
  stepOrder : Option StepOrder

/-- Those values of a state. -/
def State.listOrder (s : State) : ListOrder :=
  ⟨s.schedule.entries, s.count.ref, s.count.raised, s.time.t, s.time.phase, s.time.len, s.sync.stepOrder⟩

namespace ListOrder

/-- An effective time lies after the reference, and has been reached or lies ahead of T by at most 2^40 + 2^24 counts less the
phase. -/
def Holds (v : ListOrder) (x : TimeCount) : Prop :=
  0 < forward v.ref x ∧ (forward v.ref x ≤ forward v.ref v.t ∨ forward v.t x + v.phase.toNat ≤ 2 ^ 40 + 2 ^ 24)

/-- The list stands in order, and a step order is that of the phase. -/
def Stands (v : ListOrder) : Prop :=
  forward v.ref v.t < 2 ^ 24 ∧
  (∀ o, v.stepOrder = some o → v.raised = false ∧ o.e ≠ 0 ∧ o.e = errorAt v.phase v.len) ∧
  v.entries.Pairwise (fun a b => forward v.ref a.effective ≤ forward v.ref b.effective) ∧
  ∀ x ∈ v.entries, v.Holds x.effective

end ListOrder

theorem listInOrder_iff (s : State) : s.listInOrder ↔ s.frameInRange ∧ s.listOrder.Stands := Iff.rfl

namespace State
variable {s t : State}

theorem ref_of_stable (h : t.stable = s.stable) : t.count.ref = s.count.ref := congrArg Stable.ref h

theorem listOrder_of (hf : t.frameValues = s.frameValues) (hst : t.stable = s.stable)
    (hl : t.schedule.entries = s.schedule.entries) (hsy : t.sync.stepOrder = s.sync.stepOrder) :
    t.listOrder = s.listOrder := by
  obtain ⟨htime, _, _, hraised⟩ := FrameValues.mk.inj hf
  have href : t.count.ref = s.count.ref := ref_of_stable hst
  unfold listOrder
  rw [htime, hraised, href, hl, hsy]

/-- A state with the same frame values and the same order. -/
theorem listInOrder_of (hf : t.frameValues = s.frameValues) (hv : t.listOrder = s.listOrder) (hs : s.listInOrder) :
    t.listInOrder := by
  obtain ⟨hframe, hstands⟩ := (listInOrder_iff s).mp hs
  exact (listInOrder_iff t).mpr ⟨frameInRange_of_frameValues hf hframe, hv ▸ hstands⟩

end State

/-! ### Entries removed and placed -/

namespace ListOrder
variable {v : ListOrder}

/-- A part of the list, its effective times unchanged. -/
theorem Stands.sublist (h : v.Stands) {es : List Entry}
    (hs : (es.map (·.effective)).Sublist (v.entries.map (·.effective))) : Stands { v with entries := es } := by
  obtain ⟨hnear, hstep, horder, hrange⟩ := h
  have hpairs : (v.entries.map (·.effective)).Pairwise fun a b => forward v.ref a ≤ forward v.ref b :=
    List.pairwise_map.mpr horder
  have horder' : es.Pairwise fun a b => forward v.ref a.effective ≤ forward v.ref b.effective :=
    (List.pairwise_map (f := fun x : Entry => x.effective)).mp (hpairs.sublist hs)
  refine ⟨hnear, hstep, horder', fun x hx => ?_⟩
  obtain ⟨y, hy, e⟩ := List.mem_map.mp (hs.subset (List.mem_map_of_mem hx))
  have hold := hrange y hy
  rwa [e] at hold

/-- An entry placed at its time. -/
theorem Stands.place (h : v.Stands) {x : Entry} (hx : v.Holds x.effective) :
    Stands { v with entries := place v.ref x v.entries } := by
  obtain ⟨hnear, hstep, horder, hrange⟩ := h
  refine ⟨hnear, hstep, place_inOrder v.ref x horder, fun y hy => ?_⟩
  rcases List.mem_cons.mp ((place_perm _ _ _).mem_iff.mp hy) with rfl | hy
  · exact hx
  · exact hrange y hy

/-- A time that is ahead and within horizon of T (R26). -/
theorem holds_due (hn : forward v.ref v.t < 2 ^ 24) {x : TimeCount} (ha : ahead v.t x = true)
    (hw : withinHorizon v.t x = true) : v.Holds x := by
  have hadd := forward_add v.ref v.t x
  have hphase := v.phase.isLt
  unfold ahead at ha
  unfold withinHorizon at hw
  rw [Bool.and_eq_true, decide_eq_true_eq, decide_eq_true_eq] at ha
  rw [Bool.or_eq_true, decide_eq_true_eq, decide_eq_true_eq] at hw
  simp only [Config.horizon] at hw
  unfold Holds
  omega

/-- The end of a pulse that starts now (R29, R38), where it lies after the reference. -/
theorem holds_now (hn : forward v.ref v.t < 2 ^ 24) (w : Phase) (h : w ≠ 0 ∨ 0 < forward v.ref v.t) :
    v.Holds (v.t + w.zeroExtend 48) := by
  have hw := w.isLt
  have hphase := v.phase.isLt
  have hself : forward v.t v.t = 0 := by simp [forward]
  have hend := forward_add_width v.t v.t w
  have hadd := forward_add v.ref v.t (v.t + w.zeroExtend 48)
  have hpos : 0 < w.toNat ∨ 0 < forward v.ref v.t :=
    h.imp (fun hw0 => Nat.pos_of_ne_zero fun e => hw0 (BitVec.eq_of_toNat_eq e)) id
  unfold Holds
  omega

/-- The end of a pulse that is due (R35): a width after a time that has been reached. -/
theorem holds_after (hn : forward v.ref v.t < 2 ^ 24) {x : TimeCount} (h0 : 0 < forward v.ref x)
    (hx : forward v.ref x ≤ forward v.ref v.t) (w : Phase) : v.Holds (x + w.zeroExtend 48) := by
  have hw := w.isLt
  have hphase := v.phase.isLt
  have hend := forward_add_width v.ref x w
  have hadd := forward_add v.ref v.t (x + w.zeroExtend 48)
  have hlt : forward v.t (x + w.zeroExtend 48) < 2 ^ 48 := (x + w.zeroExtend 48 - v.t).isLt
  unfold Holds
  omega

/-- The resolution of a due head: gone, or placed again at the end of its pulse. -/
theorem stands_resolveOne {s : State} {x : Entry} {rest : List Entry} (hl : s.schedule.entries = x :: rest)
    (hdue : s.isDue x = true) (h : s.listOrder.Stands) : (s.resolveOne x).listOrder.Stands := by
  have hsync : (s.resolveOne x).sync = s.sync :=
    State.resolveOne_same (·.sync) (fun _ _ _ => rfl) (fun _ _ _ => rfl) (fun _ _ => rfl) s x
  have hvalues : ∀ es, (s.resolveOne x).schedule.entries = es →
      (s.resolveOne x).listOrder = { s.listOrder with entries := es } := fun es e => by
    unfold State.listOrder
    rw [e, State.resolveOne_count, State.resolveOne_time, hsync]
  have hrest : Stands { s.listOrder with entries := rest } := by
    refine h.sublist ?_
    show (rest.map _).Sublist (s.schedule.entries.map _)
    rw [hl]
    exact (List.sublist_cons_self x rest).map _
  rcases State.resolveOne_entries x rest hl with e | ⟨hp, g, hg, e⟩
  · rw [hvalues _ e]; exact hrest
  · obtain ⟨hnear, _, _, hrange⟩ := id h
    obtain ⟨h0, hhead⟩ := hrange x (show x ∈ s.schedule.entries from hl ▸ List.mem_cons_self)
    have hreached : forward s.count.ref x.effective ≤ forward s.count.ref s.time.t := by
      have hplaced : s.placed x.effective := hhead.imp id fun hle => by
        have hle' : forward s.time.t x.effective + s.time.phase.toNat ≤ 2 ^ 40 + 2 ^ 24 := hle
        omega
      have hx := State.ahead_iff_further hnear hplaced
      rw [State.isDue, Bool.not_eq_true'] at hdue
      exact Nat.not_lt.mp fun hlt => absurd (hdue.symm.trans (hx.mpr hlt)) nofun
    rw [hvalues _ e]
    refine hrest.place (x := { x with pulse := some g }) ?_
    rw [State.effective_pending hp] at h0 hreached
    show s.listOrder.Holds g.endTime
    rcases hg with hg | hg <;> rw [hg]
    · exact holds_now (v := s.listOrder) hnear x.width (Or.inr (Nat.lt_of_lt_of_le h0 hreached))
    · exact holds_after (v := s.listOrder) hnear h0 hreached x.width

/-! ### A new count -/

/-- Every effective time is ahead of T, in order and within the range. -/
def AllAhead (v : ListOrder) : Prop :=
  (∀ x ∈ v.entries, 1 ≤ forward v.t x.effective ∧ forward v.t x.effective + v.phase.toNat ≤ 2 ^ 40 + 2 ^ 24) ∧
  v.entries.Pairwise fun a b => forward v.t a.effective ≤ forward v.t b.effective

/-- In a list that stands in order, a time ahead of T lies further from the reference by the distance of T. -/
theorem Holds.of_ahead {x : TimeCount} (h : v.Holds x) (hn : forward v.ref v.t < 2 ^ 24) (ha : ahead v.t x = true) :
    forward v.ref x = forward v.ref v.t + forward v.t x ∧ 1 ≤ forward v.t x ∧
      forward v.t x + v.phase.toNat ≤ 2 ^ 40 + 2 ^ 24 := by
  have hadd := forward_add v.ref v.t x
  unfold ahead at ha
  rw [Bool.and_eq_true, decide_eq_true_eq, decide_eq_true_eq] at ha
  unfold Holds at h
  omega

theorem Stands.allAhead (h : v.Stands) (ha : ∀ x ∈ v.entries, ahead v.t x.effective = true) : v.AllAhead := by
  obtain ⟨hnear, _, horder, hrange⟩ := h
  have hx : ∀ x ∈ v.entries, _ := fun x hx => (hrange x hx).of_ahead hnear (ha x hx)
  refine ⟨fun x hm => (hx x hm).2, horder.imp_of_mem fun {a b} hma hmb hab => ?_⟩
  obtain ⟨hfa, _⟩ := hx a hma
  obtain ⟨hfb, _⟩ := hx b hmb
  omega

/-- A count that moves T forward: the times are measured from T before the move. -/
theorem AllAhead.forward_stands {v : ListOrder} (h : v.AllAhead) {u : ListOrder} (hl : u.entries = v.entries)
    (href : u.ref = v.t) (ho : u.stepOrder = none) (hn : forward v.t u.t < 2 ^ 24)
    (hphase : u.phase.toNat ≤ v.phase.toNat + forward v.t u.t) :
    u.Stands := by
  obtain ⟨hrange, horder⟩ := h
  refine ⟨href ▸ hn, fun o e => absurd (ho.symm.trans e) nofun, by rw [href, hl]; exact horder, fun x hx => ?_⟩
  have hx := hrange x (hl ▸ hx)
  have hadd := forward_add v.t u.t x.effective
  have hlt : forward u.t x.effective < 2 ^ 48 := (x.effective - u.t).isLt
  unfold Holds
  rw [href]
  omega

/-- The count of a backward step: the times are measured from the frame's origin, the phase before T (R10, R40). -/
theorem AllAhead.backward_stands {v : ListOrder} (h : v.AllAhead) {u : ListOrder} (hl : u.entries = v.entries)
    (href : u.ref = u.t) (ho : u.stepOrder = none) (ht : forward u.t v.t = v.phase.toNat) (hphase : u.phase = 0) :
    u.Stands := by
  obtain ⟨hrange, horder⟩ := h
  have hself : forward u.t u.t = 0 := by simp [forward]
  have hp : u.phase.toNat = 0 := by rw [hphase]; rfl
  have hx : ∀ x ∈ v.entries, forward u.t x.effective = v.phase.toNat + forward v.t x.effective := fun x hx => by
    have hadd := forward_add u.t v.t x.effective
    have hr := hrange x hx
    omega
  refine ⟨by rw [href, hself]; decide, fun o e => absurd (ho.symm.trans e) nofun, ?_, fun x hm => ?_⟩
  · rw [href, hl]
    refine horder.imp_of_mem fun {a b} hma hmb hab => ?_
    rw [hx a hma, hx b hmb]
    omega
  · have hr := hrange x (hl ▸ hm)
    have hm' := hx x (hl ▸ hm)
    unfold Holds
    rw [href]
    omega

end ListOrder

end Sys2Proof.Machine
end

section
/-! PROOFS. The list stays in order (R21, R33, R38 to R40): every operation keeps it, and the end of a count leaves every entry
ahead of T. -/

namespace Sys2Proof.Machine

/-! ### The step order of the sync unit (R99, R100) -/

namespace SyncUnit

theorem closeFrame_stepOrder (u : SyncUnit) : u.closeFrame.stepOrder = u.stepOrder := by
  unfold closeFrame
  repeat' split
  all_goals rfl

theorem closeAt_stepOrder (limit : BitVec 16) (u : SyncUnit) : (u.closeAt limit).stepOrder = u.stepOrder := by
  unfold closeAt countHoldover
  dsimp only
  repeat' split
  all_goals exact closeFrame_stepOrder u

theorem takeUp_stepOrder (enable : Bool) (u : SyncUnit) : (u.takeUp enable).stepOrder = u.stepOrder := by
  unfold takeUp
  repeat' split
  all_goals rfl

theorem measureState_stepOrder (e : Int) (u : SyncUnit) : (u.measureState e).stepOrder = u.stepOrder := by
  unfold measureState
  repeat' split
  all_goals rfl

/-- A measurement orders the step it decides on, and no other. -/
theorem measure_stepOrder {r : Plan} {e : Int} {u : SyncUnit} {o : StepOrder} (h : (u.measure r e).stepOrder = some o) :
    o.e ≠ 0 ∧ o.e = e ∨ u.stepOrder = some o := by
  unfold measure correct at h
  split at h
  · next hsteps =>
    unfold Plan.steps at hsteps
    rw [Bool.and_eq_true, decide_eq_true_eq, decide_eq_true_eq] at hsteps
    rw [← Option.some.inj h]
    exact Or.inl ⟨by dsimp only; omega, rfl⟩
  · exact Or.inr ((measureState_stepOrder e { u with lastE := e, missedRun := 0, measured := true }).symm.trans h)

end SyncUnit

namespace State
variable {s : State}

/-! ### The events of a count -/

theorem boundaryWaits_iff : s.boundaryWaits = true ↔ s.count.raised = true ∧ s.count.move ≠ .backward := by
  simp [boundaryWaits]

/-- The frame event of a count leaves the list, the times it is measured by and the step order. -/
theorem listOrder_takeFrameEvent (hr : s.count.raised = true) : s.takeFrameEvent.listOrder =
    { s.listOrder with raised := false, len := s.takeFrameEvent.time.len } := by
  have href : s.takeFrameEvent.count.ref = s.count.ref := ref_of_stable (stable_takeFrameEvent s)
  unfold listOrder
  by_cases hm : s.count.move = .backward
  · have hw := backwardWaits_iff.mpr ⟨hr, hm⟩
    rw [takeFrameEvent_backward_schedule hw, href, takeFrameEvent_backward_raised hw, takeFrameEvent_backward_time hw,
      takeFrameEvent_backward_sync hw]
  · have hw := boundaryWaits_iff.mpr ⟨hr, hm⟩
    have hstep : s.takeFrameEvent.sync.stepOrder = s.sync.stepOrder := by
      rw [takeFrameEvent_boundary s (·.sync) (fun _ _ _ => rfl) (fun _ => rfl) hw, frameBoundary_sync,
        boundaryPlanAndSync_sync]
      dsimp only
      split
      · rw [SyncUnit.takeUp_stepOrder, SyncUnit.closeAt_stepOrder]; rfl
      · rw [SyncUnit.closeAt_stepOrder]; rfl
    rw [takeFrameEvent_schedule hw, href, takeFrameEvent_raised hw, hstep, takeFrameEvent_time hw]

theorem listInOrder_takeFrameEvent (h : s.listInOrder) : s.takeFrameEvent.listInOrder := by
  cases hr : s.count.raised with
  | false => rw [takeFrameEvent_quiet hr]; exact h
  | true =>
    obtain ⟨hframe, hnear, hstep, horder, hrange⟩ := h
    refine (listInOrder_iff _).mpr ⟨frameInRange_takeFrameEvent s hframe, ?_⟩
    rw [listOrder_takeFrameEvent hr]
    exact ⟨hnear, fun o ho => absurd (hr.symm.trans (hstep o ho).1) nofun, horder, hrange⟩

theorem takeFrameEvent_not_raised (s : State) : s.takeFrameEvent.count.raised = false := by
  cases hr : s.count.raised with
  | false => rw [takeFrameEvent_quiet hr]; exact hr
  | true => exact congrArg ListOrder.raised (listOrder_takeFrameEvent hr)

/-- What a REFIN edge leaves, the queues and the sync unit aside. -/
theorem handleEdge_same {α : Type} (g : State → α) (hq : ∀ (s : State) p f, g (s.modQueue p f) = g s)
    (hc : ∀ s : State, g { s with count := { s.count with syncPosted := true } } = g s)
    (hs : ∀ (s : State) f, g (s.modSync f) = g s) : g s.handleEdge = g s := by
  unfold handleEdge measureEdge
  repeat' split
  · rfl
  · exact hs _ _
  · exact hs _ _
  · exact (noteSync_same _ g hq hc).trans (hs _ _)

/-- The step order after an edge is that of its phase, or the one before. -/
theorem handleEdge_stepOrder {o : StepOrder} (h : s.handleEdge.sync.stepOrder = some o) :
    o.e ≠ 0 ∧ o.e = errorAt s.time.phase s.time.len ∨ s.sync.stepOrder = some o := by
  unfold handleEdge measureEdge at h
  repeat' split at h
  · exact Or.inr h
  · exact Or.inr h
  · exact SyncUnit.measure_stepOrder h
  · rw [noteSync_same _ (·.sync) (fun _ _ _ => rfl) fun _ => rfl] at h
    exact SyncUnit.measure_stepOrder h

/-- An edge is handled after the frame event of its count. -/
theorem stands_handleEdge (hr : s.count.raised = false) (h : s.listOrder.Stands) : s.handleEdge.listOrder.Stands := by
  have hentries : s.handleEdge.schedule.entries = s.schedule.entries :=
    handleEdge_same (·.schedule.entries) (fun _ _ _ => rfl) (fun _ => rfl) fun _ _ => rfl
  have hvalues : s.handleEdge.listOrder = { s.listOrder with stepOrder := s.handleEdge.sync.stepOrder } := by
    obtain ⟨htime, _, _, hraised⟩ := FrameValues.mk.inj (frameValues_handleEdge s)
    have href : s.handleEdge.count.ref = s.count.ref := ref_of_stable (stable_handleEdge s)
    unfold listOrder
    rw [htime, hraised, href, hentries]
  obtain ⟨hnear, hstep, horder, hrange⟩ := h
  rw [hvalues]
  exact ⟨hnear, fun o ho => (handleEdge_stepOrder ho).elim (fun he => ⟨hr, he⟩) (hstep o), horder, hrange⟩

theorem listInOrder_takeRefin (h : s.listInOrder) : s.takeRefin.listInOrder := by
  refine (listInOrder_iff _).mpr ⟨frameInRange_takeRefin s h.1, ?_⟩
  unfold takeRefin
  split
  · exact stands_handleEdge (s := s.takeFrameEvent.modCount fun c => { c with refinEdge := false })
      (takeFrameEvent_not_raised s) ((listInOrder_iff _).mp (listInOrder_takeFrameEvent h)).2
  · exact ((listInOrder_iff s).mp h).2

theorem takeChangesTo_same {α : Type} (g : State → α) (hc : ∀ (s : State) x, g (s.takeChange x) = g s)
    (hdrop : ∀ (s : State) x, g { s with count := { s.count with changes := x } } = g s) (k : LineId) :
    g (s.takeChangesTo k) = g s := by
  have fold : ∀ (l : List (LineId × Edge)) (u : State), g (l.foldl takeChange u) = g u := fun l => by
    induction l with
    | nil => exact fun _ => rfl
    | cons x xs ih => exact fun u => (ih _).trans (hc u x)
  exact (fold _ _).trans (hdrop s _)

theorem listOrder_takeChangesTo (k : LineId) : (s.takeChangesTo k).listOrder = s.listOrder :=
  listOrder_of (frameValues_takeChangesTo s k) (stable_takeChangesTo s k)
    (takeChangesTo_same (·.schedule.entries) (fun _ x => congrArg Schedule.entries (capture_schedule _ x.1 x.2))
      (fun _ _ => rfl) k)
    (takeChangesTo_same (·.sync.stepOrder) (fun _ x => congrArg SyncUnit.stepOrder (capture_sync _ x.1 x.2))
      (fun _ _ => rfl) k)

/-! ### The move of a count -/

/-- The distance of a move of T back, and of a move on. -/
theorem forward_moveBack (t : TimeCount) {n : Nat} (hn : n < 2 ^ 48) : forward (t - BitVec.ofInt 48 (n : Int)) t = n := by
  rw [BitVec.ofInt_natCast]
  have ht := t.isLt
  simp only [forward, BitVec.toNat_sub, BitVec.toNat_ofNat]
  omega

theorem forward_move (t : TimeCount) {n : Nat} (hn : n < 2 ^ 48) : forward t (t - BitVec.ofInt 48 (-(n : Int))) = n := by
  rw [BitVec.ofInt_neg, BitVec.ofInt_natCast]
  have ht := t.isLt
  simp only [forward, BitVec.toNat_sub, BitVec.toNat_neg, BitVec.toNat_ofNat]
  omega

theorem stands_advanceCount {a : Nat} (ha : a ≤ 2) (m : Move) (ho : s.sync.stepOrder = none) (h : s.listOrder.AllAhead) :
    (s.advanceCount a m).listOrder.Stands := by
  have ht : forward s.time.t (s.time.t + BitVec.ofNat 48 a) = a := by
    simp only [forward, BitVec.toNat_sub, BitVec.toNat_add, BitVec.toNat_ofNat]
    have := s.time.t.isLt
    omega
  have hmove : (s.advanceCount a m).time.t = s.time.t + BitVec.ofNat 48 a := by
    unfold advanceCount TimeBase.advance
    dsimp only
    split <;> rfl
  have hphase : (s.advanceCount a m).time.phase.toNat ≤ s.time.phase.toNat + a := by
    unfold advanceCount TimeBase.advance
    dsimp only
    split
    · exact (Nat.mod_le _ _).trans (Nat.sub_le _ _)
    · exact Nat.mod_le _ _
  refine h.forward_stands (u := (s.advanceCount a m).listOrder) rfl rfl ho ?_ ?_
  · show forward s.time.t (s.advanceCount a m).time.t < 2 ^ 24
    rw [hmove, ht]
    omega
  · show (s.advanceCount a m).time.phase.toNat ≤ s.time.phase.toNat + forward s.time.t (s.advanceCount a m).time.t
    rw [hmove, ht]
    exact hphase

/-- A backward step goes back by the phase, to the frame's origin (R10). -/
theorem stands_backwardCount (h : s.listOrder.AllAhead) {e : Int} (he : e = errorAt s.time.phase s.time.len) (hpos : 0 < e)
    (hphase : s.time.phase.toNat < s.time.len.toNat) : (s.backwardCount e).listOrder.Stands := by
  have hp := s.time.phase.isLt
  have hback : e = (s.time.phase.toNat : Int) := by
    unfold errorAt at he
    split at he <;> omega
  refine h.backward_stands (u := (s.backwardCount e).listOrder) rfl rfl rfl ?_ rfl
  show forward (s.time.t - BitVec.ofInt 48 e) s.time.t = s.time.phase.toNat
  rw [hback]
  exact forward_moveBack _ (by omega)

/-- A forward step goes on by what is left of the frame, to the next one's origin (R11). -/
theorem stands_forwardCount (h : s.listOrder.AllAhead) {e : Int} (held : SyncState)
    (he : e = errorAt s.time.phase s.time.len) (hneg : e < 0) : (s.forwardCount e held).listOrder.Stands := by
  have hl := s.time.len.isLt
  have hon : ∃ n : Nat, e = -(n : Int) ∧ n < 2 ^ 24 := by
    unfold errorAt at he
    split at he
    · omega
    · exact ⟨s.time.len.toNat - s.time.phase.toNat, by omega, by omega⟩
  obtain ⟨n, hn, hlt⟩ := hon
  have ht : forward s.time.t (s.time.t - BitVec.ofInt 48 e) = n := by
    rw [hn]
    exact forward_move _ (by omega)
  refine h.forward_stands (u := (s.forwardCount e held).listOrder) rfl rfl rfl ?_ (Nat.zero_le _)
  show forward s.time.t (s.time.t - BitVec.ofInt 48 e) < 2 ^ 24
  rw [ht]
  exact hlt

/-- The move of the next count, from a list that stands in order with every entry ahead of T. -/
theorem listInOrder_moveCount (h : s.listInOrder) (ha : s.listOrder.AllAhead) : s.moveCount.listInOrder := by
  obtain ⟨hframe, hstands⟩ := (listInOrder_iff s).mp h
  refine (listInOrder_iff _).mpr ⟨frameInRange_moveCount s hframe, ?_⟩
  obtain ⟨_, _, hphase, _⟩ := hframe
  obtain ⟨_, hstep, _⟩ := hstands
  unfold moveCount correctCount
  split
  · next o ho =>
    obtain ⟨_, hne, he⟩ := hstep o ho
    split
    · next hpos => exact stands_backwardCount ha he hpos hphase
    · exact stands_forwardCount ha o.state he (by omega)
  · next ho =>
    split
    · exact stands_advanceCount (by decide) _ ho ha
    · dsimp only
      repeat' split
      · exact stands_advanceCount (s := s.modTime fun tb => { tb with run := .closed }) (by decide) _ ho ha
      · exact stands_advanceCount (s := (s.modTime fun tb => { tb with performed := tb.performed + 1 }).modSync
          fun u => { u with c := u.c - 1 }) (by decide) _ ho ha
      · exact stands_advanceCount (s := (s.modTime fun tb => { tb with performed := tb.performed + 1 }).modSync
          fun u => { u with c := u.c + 1 }) (by decide) _ ho ha

theorem listInOrder_sampleLines (x : LineSet) (h : s.listInOrder) : (s.sampleLines x).listInOrder := by
  have hschedule : (s.sampleLines x).schedule = s.schedule :=
    sampleLines_same s (·.schedule) (fun _ _ _ => rfl) (fun _ _ => rfl) x
  have hplan : (s.sampleLines x).plan = s.plan := sampleLines_same s (·.plan) (fun _ _ _ => rfl) (fun _ _ => rfl) x
  refine listInOrder_of ?_ ?_ h
  · unfold frameValues
    rw [sampleLines_time, sampleLines_count, hplan]
  · unfold listOrder
    rw [sampleLines_time, sampleLines_sync, sampleLines_count, hschedule]

theorem listInOrder_pins (v : Level) (x : LineSet) (h : s.listInOrder) : (s.drivePins v x).settleLines.listInOrder := h

/-! ### The end of a count -/

/-- At the end of a count every entry is ahead of T (R33, R39): the frame event leaves the list, the resolutions leave no
entry due, and what follows leaves list and time. -/
theorem endCount_leaves_ahead (h : s.listInOrder) :
    ∀ x ∈ s.endCount.schedule.entries, ahead s.endCount.time.t x.effective = true := by
  have hresolved := resolveAll_leaves_ahead (ordered_of_listInOrder (listInOrder_takeFrameEvent h))
  generalize hu : s.takeFrameEvent = u at hresolved
  have hraised : u.resolveAll.count.raised = false := by
    rw [resolveAll_count, ← hu]; exact takeFrameEvent_not_raised s
  have hrefin : u.resolveAll.takeRefin.schedule = u.resolveAll.schedule ∧
      u.resolveAll.takeRefin.time = u.resolveAll.time := by
    unfold takeRefin
    rw [takeFrameEvent_quiet hraised]
    split
    · exact ⟨handleEdge_same (·.schedule) (fun _ _ _ => rfl) (fun _ => rfl) fun _ _ => rfl,
        handleEdge_same (·.time) (fun _ _ _ => rfl) (fun _ => rfl) fun _ _ => rfl⟩
    · exact ⟨rfl, rfl⟩
  obtain ⟨hentries, _, _, ht, _⟩ := ListOrder.mk.inj (listOrder_takeChangesTo (s := u.resolveAll.takeRefin) 15)
  unfold endCount
  rw [hu, settle_schedule, settle_time, hentries, ht, hrefin.1, hrefin.2, resolveAll_time]
  exact hresolved

end State

/-! ### Every operation -/

/-- A session end leaves the times, and takes entries off the list. -/
theorem stands_endSession {s : State} (p : PortId) (h : s.listOrder.Stands) : (s.endSession p).listOrder.Stands := by
  have hraised : (s.endSession p).count.raised = s.count.raised := by
    have hlinked : (s.linkEnded p).frameValues = s.frameValues := rfl
    have hlines := (State.frameValues_linesSessionEnd (s.linkEnded p) p).trans hlinked
    rw [State.endSession_eq]
    generalize (s.linkEnded p).linesSessionEnd p = u at hlines ⊢
    exact (State.planSessionEnd_same (u.journalSessionEnd p) (·.count.raised) (fun _ _ _ => rfl) (fun _ _ => rfl) p).trans
      (congrArg FrameValues.raised hlines)
  have href : (s.endSession p).count.ref = s.count.ref := State.ref_of_stable (State.stable_endSession s p)
  have hvalues : (s.endSession p).listOrder = { s.listOrder with entries := (s.endSession p).schedule.entries } := by
    unfold State.listOrder
    rw [href, hraised, State.endSession_time, State.endSession_sync]
  rw [hvalues]
  exact h.sublist (endSession_entries_sublist (fun _ => rfl) s p)

theorem stands_adopt {s : State} (k : LineId) (p : PortId) (h : s.listOrder.Stands) : (s.adopt k p).listOrder.Stands := by
  refine h.sublist (es := (s.adopt k p).schedule.entries) ?_
  rw [adopt_entries_map (fun _ _ => rfl)]
  exact List.Sublist.refl _

/-- The entry of an accepted post, placed at its time. -/
theorem stands_enter {s : State} {p : PortId} {f : PostFields} {g : Option Pulse} (ht : s.entersAt f g)
    (h : s.listOrder.Stands) :
    (s.numbered (place s.count.ref (f.entry p s.schedule.counter g) s.schedule.entries)).listOrder.Stands := by
  refine h.place (x := f.entry p s.schedule.counter g) ?_
  cases g with
  | none => exact ListOrder.holds_due (v := s.listOrder) h.1 ht.1 ht.2
  | some g =>
    show s.listOrder.Holds g.endTime
    rw [ht.1]
    exact ListOrder.holds_now (v := s.listOrder) h.1 f.width (Or.inl ht.2)

theorem stands_keptByRequests (p : PortId) :
    KeptByRequests p (fun s => s.listOrder.Stands) fun s => s.listOrder.Stands where
  post s q b h := (post_same State.listOrder (fun _ _ _ => rfl) s q b).symm ▸ h
  deferred s q o r b h := (State.answerDeferred_same s State.listOrder (fun _ _ _ => rfl) q o r b).symm ▸ h
  plan _ _ h := h
  dropChange _ _ h := h
  line _ _ _ _ h := h
  accept _ _ _ h := h
  close _ h := stands_endSession p h
  enter_list _ _ _ _ _ _ ht h := stands_enter ht h
  number _ h := h
  remove _ _ h := h.sublist (List.eraseP_sublist.map _)
  claim _ _ _ _ _ h := h
  adopt _ k _ _ h := stands_adopt k p h
  free _ _ _ _ h := h
  fields _ _ _ _ h := h
  enter _ _ _ _ _ h := h
  subscribe _ _ h := h
  read _ _ h := h
  acknowledge _ _ h := h
  respond _ _ _ _ _ h := h
  hold _ _ _ _ h := h
  post_after s q b h := (post_same State.listOrder (fun _ _ _ => rfl) s q b).symm ▸ h

theorem listInOrder_keptByCommands : KeptByCommands State.listInOrder where
  settle _ h := h
  reset s st _ := (listInOrder_iff _).mpr ⟨State.frameInRange_resetAssert s st,
    show forward (0 : TimeCount) 0 < 2 ^ 24 by decide, nofun, List.Pairwise.nil, nofun⟩
  release _ h := h
  port_reset s p h := by
    obtain ⟨hframe, hstands⟩ := (listInOrder_iff s).mp h
    have hended : (if s.isOpen p then s.endSession p else s).listInOrder := by
      split
      · exact (listInOrder_iff _).mpr ⟨State.frameInRange_endSession s p hframe, stands_endSession p hstands⟩
      · exact h
    exact hended
  link _ _ _ _ h := h
  frame_event _ := State.listInOrder_takeFrameEvent
  resolve s x rest hl hdue h := by
    have hvalues : (s.resolveOne x).frameValues = s.frameValues :=
      State.resolveOne_same State.frameValues (fun _ _ _ => rfl) (fun _ _ _ => rfl) (fun _ _ => rfl) s x
    exact (listInOrder_iff _).mpr ⟨State.frameInRange_of_frameValues hvalues h.1, ListOrder.stands_resolveOne hl hdue h.2⟩
  refin _ := State.listInOrder_takeRefin
  changes s k := State.listInOrder_of (State.frameValues_takeChangesTo s k) (State.listOrder_takeChangesTo k)
  move s h hend := State.listInOrder_moveCount hend
    (ListOrder.Stands.allAhead (v := s.endCount.listOrder) hend.2 (State.endCount_leaves_ahead h))
  sample s v x h := State.listInOrder_pins v x (State.listInOrder_sampleLines (s := s.sampleRefin v) x h)
  pins _ _ _ h := h
  serve s i h := (listInOrder_iff _).mpr ⟨State.frameInRange_serve s i h.1,
    serve_keeps (fun _ _ _ _ h => h) (fun _ p h _ => ⟨_, h, stands_keptByRequests p⟩) s i h.2⟩

/-- Settles O2: every operation keeps the order, and the end of a count leaves every entry ahead of T. -/
theorem stepKeepsTheListInOrder : Obligations.StepKeepsTheListInOrder := by
  refine ⟨fun s t h e => listInOrder_keptByCommands.step (fun _ _ h => h) h e, fun s h => ?_⟩
  have hend := (listInOrder_iff _).mp (listInOrder_keptByCommands.endCount h)
  obtain ⟨hrange, horder⟩ := hend.2.allAhead (State.endCount_leaves_ahead h)
  exact ⟨fun x hx => ⟨(hrange x hx).1, (Nat.le_add_right _ _).trans (hrange x hx).2⟩, horder⟩

end Sys2Proof.Machine
end

section
/-! PROOFS. The samples of a count (R66, R94), and the counts that requests, select edges and input commands begin (log 3, log 4,
log 15). -/

namespace Sys2Proof.Machine

/-! ### The sample of one line (R66) -/

@[simp] theorem atPhase_last (ph : Phase) (l : Line) : (l.atPhase ph).last = l.last := by
  unfold Line.atPhase; split <;> rfl

section
variable {l : Line} {v w : Level}

theorem change_not_input (h : l.mode ≠ .input) (v : Level) : l.change v = none := by
  unfold Line.change
  split
  · next hm _ => exact absurd hm h
  · rfl

theorem change_first (h : l.last = none) (v : Level) : l.change v = none := by
  unfold Line.change
  split
  · next hl => rw [h] at hl; cases hl
  · rfl

theorem change_equal (h : l.last = some v) : l.change v = none := by
  unfold Line.change
  split
  · next hl =>
    rw [h] at hl
    rw [← Option.some.inj hl]
    cases v <;> rfl
  · rfl

theorem change_edge {e : Edge} (hm : l.mode = .input) (h : l.last = some w) (he : edgeBetween w v = some e) :
    l.change v = if l.edge.matches e then some e else none := by
  simp only [Line.change, hm, h, he]

theorem sampled_not_input (h : l.mode ≠ .input) (v : Level) : l.sampled v = l := by
  unfold Line.sampled
  split
  · next hm => exact absurd hm h
  all_goals rfl

/-- A sample that makes no change to hand over becomes the last sample. -/
theorem sampled_unchanged (hm : l.mode = .input) (h : l.change v = none) : l.sampled v = { l with last := some v } := by
  simp [Line.sampled, hm, h]

end

/-- Settles O12: the edge of REFIN from the two samples, and each line by its mode and its last sample. -/
theorem countSamplesTheInputs : Obligations.CountSamplesTheInputs := by
  intro s refin x hr
  have hpins := State.beginCount_pins refin x hr
  have hlast : ∀ k, ((s.beginCount refin x).settle.line k).last = ((s.endCount.line k).sampled (pinLevel x k)).last :=
    fun k => by rw [State.settle_line, atPhase_last, State.beginCount_line refin x hr, atPhase_last]
  have hnone : ∀ k, (s.endCount.line k).change (pinLevel x k) = none →
      ∀ e, (k, e) ∉ (s.beginCount refin x).settle.count.changes := fun k h e he => by
    have hwaits := (State.beginCount_changes refin x hr k e).mp he
    rw [h] at hwaits
    cases hwaits
  have hsampled : ∀ k, (s.endCount.line k).mode = .input → (s.endCount.line k).change (pinLevel x k) = none →
      ((s.beginCount refin x).settle.line k).last = some (pinLevel x k) ∧
        ∀ e, (k, e) ∉ (s.beginCount refin x).settle.count.changes := fun k hm h =>
    ⟨by rw [hlast, sampled_unchanged hm h], hnone k h⟩
  refine ⟨_, rfl, hpins.1, hpins.2, ?_, ?_, fun k => ⟨fun hm => ⟨?_, ?_⟩, fun hm => ⟨fun h => ?_, fun v h hv => ?_,
    fun v e h he => ?_⟩⟩⟩
  · rw [State.settle_sync, State.beginCount_sync refin x hr]
  · rw [State.settle_count, State.beginCount_count refin x hr]
    exact decide_eq_true_iff
  · rw [hlast, sampled_not_input hm]
  · exact hnone k (change_not_input hm _)
  · exact hsampled k hm (change_first h _)
  · subst hv
    exact hsampled k hm (change_equal h)
  · have hchange := change_edge hm h he
    split
    · next hmatch => exact (State.beginCount_changes refin x hr k e).mpr (by rw [hchange, if_pos hmatch])
    · next hmatch => exact hsampled k hm (by rw [hchange, if_neg hmatch])

namespace State

/-! ### The count a port's link takes (log 4) -/

/-- Every request command is its request, taken in the port's count. -/
theorem exec_request {c : Instr} {p : PortId} {kind id : Byte} {body : List Byte}
    (h : requestFields c = some (p, kind, id, body)) (s : State) : exec c s = answer ((s.linkCount p).serve c) := by
  cases c <;> cases h <;> rfl

section
variable {s : State} {p : PortId}

theorem nextCount_port (hr : s.resetLow = false) (p : PortId) : s.nextCount.port p = s.endCount.port p :=
  congrArg (fun v : Vector Port 4 => v[p]) (beginCount_ports s.refinIn s.lineIn hr)

/-- A new count changes no pin of a port's link. -/
theorem nextCount_pins (hr : s.resetLow = false) (p : PortId) : (s.nextCount.port p).pins = (s.port p).pins := by
  rw [nextCount_port hr]
  exact pins_of_stable (stable_endCount s) p

theorem nextCount_handles (h : s.handles p = true) : s.nextCount.handles p = true := by
  unfold handles at h ⊢
  rw [Bool.and_eq_true, Bool.not_eq_true', Bool.not_eq_true'] at h ⊢
  exact ⟨beginCount_resetLow _ _ h.1, (congrArg LinkPins.prstLow (nextCount_pins h.1 p)).trans h.2⟩

theorem resetLow_of_handles (h : s.handles p = true) : s.resetLow = false := by
  unfold handles at h
  rw [Bool.and_eq_true, Bool.not_eq_true'] at h
  exact h.1

/-- Where a port has used the count in progress, or none has begun, its link takes the next count. -/
theorem linkCount_nextCount (h : s.handles p = true)
    (hused : s.count.running = false ∨ (s.port p).lastEdge = some s.count.serial)
    (hfree : (s.port p).lastEdge ≠ some (s.count.serial + 1)) : s.linkCount p = s.nextCount.linkCount p := by
  have hr := resetLow_of_handles h
  have hlast : (s.nextCount.port p).lastEdge = (s.port p).lastEdge := congrArg LinkPins.lastEdge (nextCount_pins hr p)
  have hserial : s.nextCount.count.serial = s.count.serial + 1 := beginCount_serial _ _ hr
  have hnext : s.nextCount.linkCount p = s.nextCount.useCount p :=
    linkCount_free (nextCount_handles h) (beginCount_running _ _ hr) (by rw [hlast, hserial]; exact hfree)
  rw [hnext]
  unfold linkCount
  rw [if_pos h]
  rcases hused with hused | hused <;> simp [hused]

end

/-! ### The response of a transaction under way -/

theorem answerDeferred_chosen (s : State) (q : PortId) (o : DeferredOwner) (r : Result) (b : Body) (p : PortId) :
    ((s.answerDeferred q o r b).port p).chosen = (s.port p).chosen := by
  rcases answerDeferred_cases s q o r b with e | ⟨_, _, e⟩ <;> rw [e]
  rw [port_modPort]
  split
  · next h => rw [h]
  · rfl

/-- No event of a count changes the response a port has put out. -/
theorem chosen_keptByBlocks (p : PortId) (c : Option Chosen) : KeptByBlocks fun s => (s.port p).chosen = c where
  post s q b h := (post_same (fun t => (t.port p).chosen) (fun _ _ _ => rfl) s q b).trans h
  deferred s q o r b h := (answerDeferred_chosen s q o r b p).trans h
  line _ _ _ _ h := h
  plan _ _ h := h
  time _ _ h := h
  sync _ _ h := h
  count _ _ h := h
  lines_settle _ h := h
  pins _ _ _ h := h

theorem endCount_chosen (s : State) (p : PortId) : (s.endCount.port p).chosen = (s.port p).chosen := by
  have hblocks := chosen_keptByBlocks p (s.port p).chosen
  have hresolved : (s.takeFrameEvent.resolveAll.port p).chosen = (s.port p).chosen :=
    (resolveHeads_same (fun t => (t.port p).chosen) (fun _ _ _ => rfl) (fun _ _ _ => rfl) (fun _ _ => rfl) _ _ _).trans
      (hblocks.takeFrameEvent rfl)
  have hstore : ∀ (u : State) k e x, (u.port p).chosen = (s.port p).chosen →
      ((u.evict.append k e x).port p).chosen = (s.port p).chosen := fun u _ _ _ hu =>
    (evict_same u (fun t => (t.port p).chosen) (fun _ _ => rfl) fun _ _ _ => rfl).trans hu
  unfold endCount
  rw [settle_port_eq]
  exact hblocks.takeChangesTo hstore 15 (hblocks.takeRefin hresolved)

theorem nextCount_chosen {s : State} (hr : s.resetLow = false) (p : PortId) :
    (s.nextCount.port p).chosen = (s.port p).chosen := by
  rw [nextCount_port hr, endCount_chosen]

/-! ### The edges of CS_n -/

theorem selectFalls_high {s : State} {p : PortId} (hl : (s.port p).csLow = false) (h : s.handles p = true) :
    s.selectFalls p = (s.linkCount p).putOut p := by
  simp [selectFalls, hl, h]

/-- A rise that ends a transaction, by the response chosen for it. -/
theorem selectRises_low {s : State} {p : PortId} (hl : (s.port p).csLow = true) (mosi : List Bool) :
    s.selectRises p mosi = match (s.port p).chosen with
      | none => (s.linkCount p).modPort p fun q => { q with csLow := false }
      | some c => ((s.linkCount p).modPort p (Port.finish c mosi)).receive p (bytesOfBits mosi) := by
  simp only [selectRises, hl]
  rfl

end State

/-- Settles O52: the link's count is the same from the state and from its next count; an input command begins the count itself. -/
theorem commandsBeginACountWhereNoneIsFree : Obligations.CommandsBeginACountWhereNoneIsFree := by
  refine ⟨fun s p c kind id body hh hc hused hfree => ?_, fun s p hh hused hfree => ?_, fun s he => ?_,
    fun s k v x hk hx => ?_⟩
  · rw [State.exec_request hc, State.exec_request hc, State.linkCount_nextCount hh hused hfree]
  · have hr := State.resetLow_of_handles hh
    have hlink := State.linkCount_nextCount hh hused hfree
    have hcs : (s.nextCount.port p).csLow = (s.port p).csLow := congrArg LinkPins.csLow (State.nextCount_pins hr p)
    refine ⟨fun hl => congrArg answer ?_, fun hl mosi => congrArg answer ?_⟩
    · rw [State.selectFalls_high hl hh, State.selectFalls_high (hcs.trans hl) (State.nextCount_handles hh), hlink]
    · rw [State.selectRises_low hl, State.selectRises_low (hcs.trans hl), State.nextCount_chosen hr, hlink]
  · have hbegin : exec .refinEdge s = answer (s.beginCount .high s.lineIn).takeRefin := by
      show answer (if s.count.refinEdge then s.takeRefin else (s.beginCount .high s.lineIn).takeRefin) = _
      simp only [he, Bool.false_eq_true, if_false]
    rw [hbegin]
    split
    · next hedge =>
      show _ = answer (if (s.beginCount .high s.lineIn).count.refinEdge then _ else _)
      rw [if_pos hedge]
    · next hedge =>
      rw [State.takeRefin_quiet (Bool.not_eq_true _ ▸ hedge)]
      rfl
  · have hset : setLine s.lineIn k v = x := by rw [hx]; cases v <;> rfl
    have hbegin : exec (.lineLevelChange k v) s =
        answer ((s.beginCount s.refinIn x).takeChangeIf (k, edgeTo v)) := by
      show answer (if s.count.changes.contains (k, edgeTo v) then s.takeChangesTo k
        else (s.beginCount s.refinIn (setLine s.lineIn k v)).takeChangeIf (k, edgeTo v)) = _
      rw [if_neg (by simpa using hk), hset]
    rw [hbegin]
    unfold State.takeChangeIf
    split
    · next hw =>
      have hmem : (k, edgeTo v) ∈ (s.beginCount s.refinIn x).count.changes := by simpa using hw
      rw [if_pos hmem]
      show _ = answer (if (s.beginCount s.refinIn x).count.changes.contains (k, edgeTo v) then _ else _)
      rw [if_pos hw]
    · next hw =>
      rw [if_neg (by simpa using hw)]
      rfl

end Sys2Proof.Machine
end

section
/-! PROOFS. Cyclic programs at a frame boundary event (R64, R65): the check of one program, one line, and the whole line table. -/

namespace Sys2Proof.Machine

/-! ### The check of a program (R65) -/

section
variable {g : Program} {len : Phase}

theorem outOfRange_iff : g.outOfRange len = true ↔ len.toNat ≤ g.rise.toNat ∨ len.toNat ≤ g.fall.toNat := by
  simp [Program.outOfRange]

theorem checked_out (h : g.outOfRange len = true) : g.checked len = { g with force := .low } := by
  simp [Program.checked, h]

theorem checked_in (h : g.outOfRange len = false) : g.checked len = g := by
  simp [Program.checked, h]

end

namespace State

section
variable {s : State} {k : LineId} {g : Program} {len : Phase}

theorem reportForced_owner {p : PortId} (ho : (s.line k).owner = some p) (h : g.outOfRange len = true)
    (hf : g.force ≠ .low) : s.reportForced k g len = s.post p (.programForced k s.time.frame) := by
  simp [reportForced, ho, h, hf]

/-- Nobody to report to, or nothing that changes: no report. -/
theorem reportForced_none (h : (s.line k).owner = none ∨ g.force = .low ∨ g.outOfRange len = false) :
    s.reportForced k g len = s := by
  unfold reportForced
  split
  · rfl
  · next p ho =>
    rcases h with h | h | h
    · rw [ho] at h; cases h
    · simp [h]
    · simp [h]

/-! ### One line at the event (R64, R65) -/

/-- An answer to a stager changes the link of its port alone. -/
@[simp] theorem answerStager_line (s : State) (j : LineId) (r : Result) (b : Body) (k : LineId) :
    (s.answerStager j r b).line k = s.line k := answerStager_same s (·.line k) (fun _ _ _ => rfl) j r b
@[simp] theorem answerStager_time (s : State) (k : LineId) (r : Result) (b : Body) : (s.answerStager k r b).time = s.time :=
  answerStager_same s (·.time) (fun _ _ _ => rfl) k r b

theorem answerStager_unstaged (r : Result) (b : Body) (h : (s.line k).staged = none) : s.answerStager k r b = s := by
  simp [answerStager, h]

/-- A stager that waits is answered, and its request leaves the deferred list (R146). -/
theorem answerStager_pending (r : Result) (b : Body) {x : Staged} {q : PortId} {i : Byte} {d : Deferred}
    (hx : (s.line k).staged = some x) (hq : x.stager = some (q, i))
    (hd : (s.port q).deferred.find? (fun d => decide (d.owner = .line k)) = some d) :
    s.answerStager k r b = s.modPort q fun y =>
      { y with
        deferred := y.deferred.eraseP fun d => decide (d.owner = .line k)
        responses := y.responses ++ [⟨d.kind, d.id, r, b, s.count.serial⟩] } := by
  simp only [answerStager, hx, hq, answerDeferred, hd]

/-- A staged program swapped in, before its report. -/
def swapped (s : State) (len : Phase) (k : LineId) (g : Program) : State :=
  (s.answerStager k .ok (.stage (lineByte k) s.time.frame (g.outOfRange len))).modLine k fun l =>
    { l with active := some (g.checked len), staged := none }

/-- An active program checked, before its report. -/
def rechecked (s : State) (len : Phase) (k : LineId) (g : Program) : State :=
  s.modLine k fun l => { l with active := some (g.checked len) }

theorem boundaryLine_staged (applied : Bool) {stager : Option (PortId × Byte)} (hm : (s.line k).mode = .outputCycle)
    (hg : (s.line k).staged = some ⟨g, stager⟩) :
    s.boundaryLine len applied k = (s.swapped len k g).reportForced k g len := by
  simp [boundaryLine, hm, hg, swapped]

theorem boundaryLine_checked (hm : (s.line k).mode = .outputCycle) (hs : (s.line k).staged = none)
    (hg : (s.line k).active = some g) : s.boundaryLine len true k = (s.rechecked len k g).reportForced k g len := by
  simp [boundaryLine, hm, hs, hg, rechecked]

theorem boundaryLine_unchecked (hs : (s.line k).staged = none) : s.boundaryLine len false k = s := by
  cases ha : (s.line k).active <;> simp [boundaryLine, hs, ha]

theorem swapped_line : (s.swapped len k g).line k = { s.line k with active := some (g.checked len), staged := none } := by
  simp [swapped]

theorem swapped_time : (s.swapped len k g).time = s.time := by simp [swapped]

theorem rechecked_line : (s.rechecked len k g).line k = { s.line k with active := some (g.checked len) } := by
  simp [rechecked]

end
end State

/-- Settles O19: the check of the active program and of the staged one, each by the range, the force and the owner. -/
theorem forcedProgramIsReportedToItsOwner : Obligations.ForcedProgramIsReportedToItsOwner := by
  intro s k g len hm
  have hin : g.rise.toNat < len.toNat → g.fall.toNat < len.toNat → g.outOfRange len = false := fun h1 h2 =>
    Bool.eq_false_iff.mpr fun h => by rcases outOfRange_iff.mp h with h | h <;> omega
  refine ⟨fun hs hg => ?_, fun applied stager answered hg hanswered => ?_⟩
  · rw [State.boundaryLine_checked hm hs hg]
    have howner : ((s.rechecked len k g).line k).owner = (s.line k).owner := by rw [State.rechecked_line]
    refine ⟨fun p ho hr hf => ?_, fun hq hr => ?_, fun h1 h2 => ?_⟩
    · rw [State.reportForced_owner (howner.trans ho) (outOfRange_iff.mpr hr) hf, State.rechecked,
        checked_out (outOfRange_iff.mpr hr)]
      rfl
    · rw [State.reportForced_none (hq.imp howner.trans Or.inl), State.rechecked, checked_out (outOfRange_iff.mpr hr)]
    · rw [State.reportForced_none (Or.inr (Or.inr (hin h1 h2))), State.rechecked, checked_in (hin h1 h2)]
      exact State.modLine_eq_self s k _ (by rw [← hg])
  · rw [State.boundaryLine_staged applied hm hg]
    have howner : ((s.swapped len k g).line k).owner = (s.line k).owner := by rw [State.swapped_line]
    refine ⟨fun p ho hr hf => ?_, fun hq hr => ?_, fun h1 h2 => ?_⟩
    · have hout := outOfRange_iff.mpr hr
      rw [State.reportForced_owner (howner.trans ho) hout hf, State.swapped_time, State.swapped, checked_out hout, hout,
        hanswered]
    · have hout := outOfRange_iff.mpr hr
      rw [State.reportForced_none (hq.imp howner.trans Or.inl), State.swapped, checked_out hout, hout, hanswered]
    · rw [State.reportForced_none (Or.inr (Or.inr (hin h1 h2))), State.swapped, checked_in (hin h1 h2), hin h1 h2,
        hanswered]

/-! ### Operations over all ports or lines that reach one of them -/

/-- What the operation at one place of a list establishes, where the operations at the other places keep it and its premise,
holds after the operation over the list. -/
theorem foldl_reaches {ι : Type} [DecidableEq ι] {P Q : State → Prop} {f : ι → State → State} (k : ι)
    (hP : ∀ j s, j ≠ k → P s → P (f j s)) (hQ : ∀ j s, j ≠ k → Q s → Q (f j s)) (hk : ∀ s, P s → Q (f k s)) (js : List ι)
    (hd : js.Nodup) (hmem : k ∈ js) (s : State) (hs : P s) : Q (js.foldl (fun t j => f j t) s) := by
  have keep : ∀ (js : List ι) (u : State), k ∉ js → Q u → Q (js.foldl (fun t j => f j t) u) := fun js => by
    induction js with
    | nil => exact fun _ _ h => h
    | cons j js ih =>
      intro u hk hu
      rw [List.mem_cons, not_or] at hk
      exact ih _ hk.2 (hQ j u (Ne.symm hk.1) hu)
  induction js generalizing s with
  | nil => cases hmem
  | cons j js ih =>
    rw [List.nodup_cons] at hd
    by_cases e : j = k
    · subst e; exact keep js _ hd.1 (hk s hs)
    · exact ih hd.2 ((List.mem_cons.mp hmem).resolve_left (Ne.symm e)) _ (hP j s e hs)

section
variable {P Q : State → Prop}

theorem forLines_reaches {f : LineId → State → State} (k : LineId) (hP : ∀ j s, j ≠ k → P s → P (f j s))
    (hQ : ∀ j s, j ≠ k → Q s → Q (f j s)) (hk : ∀ s, P s → Q (f k s)) (s : State) (hs : P s) : Q (forLines f s) :=
  foldl_reaches k hP hQ hk allLines nodup_allLines (mem_allLines k) s hs

theorem forPorts_reaches_one {f : PortId → State → State} (p : PortId) (hP : ∀ q s, q ≠ p → P s → P (f q s))
    (hQ : ∀ q s, q ≠ p → Q s → Q (f q s)) (hp : ∀ s, P s → Q (f p s)) (s : State) (hs : P s) : Q (forPorts f s) :=
  foldl_reaches p hP hQ hp allPorts nodup_allPorts (mem_allPorts p) s hs

end

namespace State

/-- A report to a port that hears it shows in its queue. -/
theorem reportForced_shows {s : State} {k : LineId} {g : Program} {len : Phase} {p : PortId}
    (ho : (s.line k).owner = some p) (hr : len.toNat ≤ g.rise.toNat ∨ len.toNat ≤ g.fall.toNat) (hf : g.force ≠ .low)
    (hopen : s.isOpen p = true)
    (he : (s.queue p).enable.getLsbD (NoteBody.programForced k s.time.frame).kind.bit = true) :
    ((s.reportForced k g len).queue p).shows (.programForced k s.time.frame) := by
  rw [reportForced_owner ho (outOfRange_iff.mpr hr) hf, post_accepted _ hopen he, queue_modQueue_same]
  exact accept_shows _ _ _

/-- What posts, answers to the stager of a line and changes of that line keep, the event at that line keeps. -/
theorem boundaryLine_keeps_at {P : State → Prop} {j : LineId} (hq : ∀ s p b, P s → P (s.post p b))
    (ha : ∀ s p r b, P s → P (s.answerDeferred p (.line j) r b)) (hl : ∀ s f, P s → P (s.modLine j f)) (len : Phase)
    (applied : Bool) (s : State) (h : P s) : P (s.boundaryLine len applied j) := by
  have stager : ∀ r b, P (s.answerStager j r b) := fun r b => by
    unfold answerStager
    repeat' split
    · exact h
    · exact h
    · exact ha _ _ _ _ h
  unfold boundaryLine
  repeat' split
  · exact h
  · exact reportForced_keeps hq _ _ _ _ (hl _ _ (stager _ _))
  · exact h
  · exact reportForced_keeps hq _ _ _ _ (hl _ _ h)
  · exact h

/-! ### The state in which the event reaches one line -/

/-- What the event at line `k` reads is as before the event: the line, the frame, the count, who hears notifications, and the
requests held for the line. -/
structure ReachesLine (s : State) (k : LineId) (t : State) : Prop where
  line : t.line k = s.line k
  frame : t.time.frame = s.time.frame
  serial : t.count.serial = s.count.serial
  isOpen : ∀ p, t.isOpen p = s.isOpen p
  enable : ∀ p, (t.queue p).enable = (s.queue p).enable
  deferred : ∀ p, (t.port p).deferred.find? (fun d => decide (d.owner = .line k)) =
    (s.port p).deferred.find? fun d => decide (d.owner = .line k)

/-- A change of a link that keeps its session state. -/
theorem isOpen_modPort_of (s : State) (q : PortId) (f : Port → Port) (hf : (f (s.port q)).isOpen = (s.port q).isOpen)
    (p : PortId) : (s.modPort q f).isOpen p = s.isOpen p := by
  simp only [isOpen, port_modPort]
  split
  · next h => subst h; exact hf
  · rfl

theorem answerStager_isOpen (s : State) (k : LineId) (r : Result) (b : Body) (p : PortId) :
    (s.answerStager k r b).isOpen p = s.isOpen p :=
  answerStager_keeps (P := fun t => t.isOpen p = s.isOpen p) (fun t q o r b ht => by
    rcases answerDeferred_cases t q o r b with e | ⟨_, _, e⟩ <;> rw [e]
    · exact ht
    · rw [isOpen_modPort_of t q _ rfl]; exact ht) s k r b rfl

namespace ReachesLine
variable {s t : State} {k : LineId} (h : ReachesLine s k t)

/-- The first deferred request of one owner stays first when that of another is answered. -/
theorem find_eraseP_other {o o' : DeferredOwner} (ho : o ≠ o') (ds : List Deferred) :
    (ds.eraseP fun d => decide (d.owner = o)).find? (fun d => decide (d.owner = o')) =
      ds.find? fun d => decide (d.owner = o') := by
  induction ds with
  | nil => rfl
  | cons d ds ih =>
    by_cases hd : d.owner = o
    · simp [hd, ho]
    · simp only [List.eraseP_cons, hd, decide_false, cond_false, List.find?_cons]
      rw [ih]

include h

theorem post (q : PortId) (b : NoteBody) : ReachesLine s k (t.post q b) where
  line := (post_same (·.line k) (fun _ _ _ => rfl) t q b).trans h.line
  frame := (congrArg TimeBase.frame (post_time t q b)).trans h.frame
  serial := (congrArg Count.serial (post_count t q b)).trans h.serial
  isOpen p := (post_isOpen t p q b).trans (h.isOpen p)
  enable p := by
    rw [← h.enable p]
    rcases post_cases t q b with e | e <;> rw [e]
    rw [queue_modQueue]
    split
    · next hq => subst hq; exact accept_enable _ _ _
    · rfl
  deferred p := (post_same (fun u => (u.port p).deferred.find? fun d => decide (d.owner = .line k)) (fun _ _ _ => rfl)
    t q b).trans (h.deferred p)

theorem answerDeferred (q : PortId) {o : DeferredOwner} (ho : o ≠ .line k) (r : Result) (b : Body) :
    ReachesLine s k (t.answerDeferred q o r b) := by
  rcases answerDeferred_cases t q o r b with e | ⟨d, _, e⟩ <;> rw [e]
  · exact h
  · refine ⟨h.line, h.frame, h.serial, fun p => ?_, h.enable, fun p => ?_⟩
    · rw [← h.isOpen p, isOpen_modPort_of t q _ rfl]
    · rw [← h.deferred p, port_modPort]
      split
      · next hq => subst hq; exact find_eraseP_other ho _
      · rfl

theorem modLine {j : LineId} (hj : j ≠ k) (f : Line → Line) : ReachesLine s k (t.modLine j f) :=
  ⟨(line_modLine_ne t f hj).trans h.line, h.frame, h.serial, h.isOpen, h.enable, h.deferred⟩

theorem plan (x : PlanUnit) : ReachesLine s k { t with plan := x } :=
  ⟨h.line, h.frame, h.serial, h.isOpen, h.enable, h.deferred⟩

theorem modSync (f : SyncUnit → SyncUnit) : ReachesLine s k (t.modSync f) :=
  ⟨h.line, h.frame, h.serial, h.isOpen, h.enable, h.deferred⟩

theorem noteSync : ReachesLine s k t.noteSync := by
  unfold State.noteSync
  split
  · exact h
  · exact forPorts_keeps (fun q u hu => hu.post q _) _
      ⟨h.line, h.frame, h.serial, h.isOpen, h.enable, h.deferred⟩

theorem answerProposer (x : Proposal) (r : Result) (b : Body) : ReachesLine s k (t.answerProposer x r b) := by
  unfold State.answerProposer
  split
  · exact h
  · exact h.answerDeferred _ (o := .plan) nofun r b

theorem boundaryPlan : ReachesLine s k t.boundaryPlan := by
  have posts : ∀ (u : State) p b, ReachesLine s k u → ReachesLine s k (u.post p b) := fun _ p b hu => hu.post p b
  unfold State.boundaryPlan
  repeat' split
  · exact h
  · exact ((announcePlan_keeps posts _ (h.plan _)).answerProposer _ _ _).plan _
  · exact (postSet_keeps posts _ _ _ (h.answerProposer _ _ _)).plan _
  · exact h.plan _

/-- The sync unit and the plan unit take the event before the line table and leave what a line reads. -/
theorem boundaryPlanAndSync : ReachesLine s k t.boundaryPlanAndSync :=
  boundarySyncOpen_keeps (fun _ hu => hu.noteSync) (fun _ f hu => hu.modSync f) _ _
    (boundaryPlan (changeSync_keeps (fun _ hu => hu.noteSync) (fun _ f hu => hu.modSync f) t _ h))

theorem boundaryLine {j : LineId} (hj : j ≠ k) (len : Phase) (applied : Bool) :
    ReachesLine s k (t.boundaryLine len applied j) :=
  boundaryLine_keeps_at (fun _ p b hu => hu.post p b)
    (fun _ p r b hu => hu.answerDeferred p (fun e => hj (DeferredOwner.line.inj e)) r b) (fun _ f hu => hu.modLine hj f)
    len applied t h

end ReachesLine

/-! ### What stands after the event -/

/-- What the event at line `k` leaves, the other lines, the posts and the resolutions of the count keep. -/
structure KeptAfterLine (k : LineId) (Q : State → Prop) : Prop where
  post : ∀ s p b, Q s → Q (s.post p b)
  deferred : ∀ s p o r b, Q s → Q (s.answerDeferred p o r b)
  line : ∀ s j f, j ≠ k → Q s → Q (s.modLine j f)
  time : ∀ s f, Q s → Q (s.modTime f)
  count : ∀ s f, Q s → Q (s.modCount f)
  resolve : ∀ s x, Q s → Q (s.resolveOne x)

section
variable {k : LineId} {Q : State → Prop} (h : KeptAfterLine k Q) {s : State}
include h

theorem KeptAfterLine.noteSync (hs : Q s) : Q s.noteSync := by
  unfold State.noteSync
  split
  · exact hs
  · exact forPorts_keeps (fun q u hu => h.post u q _ hu) _ (h.count s (fun c => { c with syncPosted := true }) hs)

/-- What the event establishes at line `k` holds after a frame boundary event. -/
theorem KeptAfterLine.frameBoundary {u : State} (hu : ReachesLine s k u)
    (hk : ∀ t, ReachesLine s k t → Q (t.boundaryLine u.frameBoundary.plan.record.frameLength u.planApplies k)) :
    Q u.frameBoundary := by
  rw [frameBoundary_plan, ← boundaryPlanAndSync_plan] at hk
  unfold State.frameBoundary boundaryTime boundaryTable
  refine h.time _ _ (forLines_reaches (P := ReachesLine s k) k (fun j t hj ht => ht.boundaryLine hj _ _)
    (fun j t hj ht => ?_) hk _ hu.boundaryPlanAndSync)
  exact boundaryLine_keeps_at h.post (fun v p r b => h.deferred v p _ r b) (fun v f => h.line v j f hj) _ _ t ht

theorem KeptAfterLine.resolveAll (hs : Q s) : Q s.resolveAll := resolveHeads_keeps h.resolve _ _ s hs

end

/-- The command that takes a frame boundary event answers a state, settled, in which all stands that the event establishes at
a line and the rest of the event keeps. -/
theorem exec_boundary_line {s : State} {c : Instr} (h : s.boundaryTakenBy c) (k : LineId) : ∃ u,
    exec c s = .next u.settle ∧ ∀ Q, KeptAfterLine k Q →
      (∀ t, ReachesLine s k t → Q (t.boundaryLine u.time.len s.planApplies k)) → Q u := by
  obtain ⟨hw, hexec⟩ := exec_boundaryTakenBy h
  have hlen : s.takeFrameEvent.time.len =
      (s.modCount fun c => { c with raised := false }).frameBoundary.plan.record.frameLength := by
    rw [takeFrameEvent_time hw, takeFrameEvent_boundary s (·.plan) (fun _ _ _ => rfl) (fun _ => rfl) hw]
  have event : ∀ Q, KeptAfterLine k Q →
      (∀ t, ReachesLine s k t → Q (t.boundaryLine s.takeFrameEvent.time.len s.planApplies k)) → Q s.takeFrameEvent := by
    intro Q hQ hk
    rw [hlen] at hk
    have hboundary := hQ.frameBoundary (s := s) (u := s.modCount fun c => { c with raised := false })
      ⟨rfl, rfl, rfl, fun _ => rfl, fun _ => rfl, fun _ => rfl⟩ hk
    obtain ⟨hr, hm⟩ := boundaryWaits_iff.mp hw
    unfold takeFrameEvent frameEvent
    rw [if_pos hr]
    cases hmove : s.count.move with
    | backward => exact absurd hmove hm
    | forward held => exact hQ.noteSync hboundary
    | ordinary | insertion | deletion => exact hboundary
  rcases hexec with ⟨rfl, e⟩ | ⟨rfl, e⟩
  · exact ⟨_, e, event⟩
  · refine ⟨_, e, fun Q hQ hk => hQ.resolveAll (event Q hQ ?_)⟩
    rwa [resolveAll_time] at hk

/-! ### The programs, the answer and the report after the event -/

/-- A level handed to a line changes no program. -/
theorem handLevel_programs (s : State) (j : LineId) (v : Level) (k : LineId) :
    ((s.handLevel j v).line k).staged = (s.line k).staged ∧ ((s.handLevel j v).line k).active = (s.line k).active := by
  unfold handLevel
  rw [line_modLine]
  repeat' split
  all_goals simp_all

theorem resolveOne_programs (s : State) (x : Entry) (k : LineId) :
    ((s.resolveOne x).line k).staged = (s.line k).staged ∧ ((s.resolveOne x).line k).active = (s.line k).active := by
  have hlead := handLevel_programs s x.line (x.kind.leading ((s.line x.line).driven.getD .low)) k
  have htrail : ((s.trail x.line x.kind).line k).staged = (s.line k).staged ∧
      ((s.trail x.line x.kind).line k).active = (s.line k).active := by
    unfold trail
    split
    · exact ⟨rfl, rfl⟩
    · exact handLevel_programs s x.line _ k
  unfold resolveOne resolveDue resolveJumped lead
  repeat' split
  all_goals simp only [resolve_line, startPulse_line, hlead, htrail, and_self]

theorem programs_keptAfterLine (k : LineId) (a : Option Program) (b : Option Staged) :
    KeptAfterLine k fun t => (t.line k).staged = b ∧ (t.line k).active = a where
  post s p x h := by
    rw [post_same (·.line k) (fun _ _ _ => rfl) s p x]; exact h
  deferred s p o r x h := by
    rw [answerDeferred_same s (·.line k) (fun _ _ _ => rfl) p o r x]; exact h
  line s j f hj h := by rw [line_modLine_ne s f hj]; exact h
  time _ _ h := h
  count _ _ h := h
  resolve s x h := by rw [(resolveOne_programs s x k).1, (resolveOne_programs s x k).2]; exact h

/-- An answer in a response queue stays there. -/
theorem response_keptAfterLine (k : LineId) (p : PortId) (x : Response) :
    KeptAfterLine k fun t => x ∈ (t.port p).responses where
  post s q b h := by
    rw [post_same (·.port p) (fun _ _ _ => rfl) s q b]; exact h
  deferred s q o r b h := by
    rcases answerDeferred_cases s q o r b with e | ⟨d, _, e⟩ <;> rw [e]
    · exact h
    · rw [port_modPort]
      split
      · next hq => subst hq; exact List.mem_append_left _ h
      · exact h
  line _ _ _ _ h := h
  time _ _ h := h
  count _ _ h := h
  resolve s y h := by
    rw [resolveOne_same (·.port p) (fun _ _ _ => rfl) (fun _ _ _ => rfl) (fun _ _ => rfl) s y]; exact h

/-- A notification of a kind that does not coalesce stays in its queue. -/
theorem shows_keptAfterLine (k : LineId) (p : PortId) {b : NoteBody} (hb : b.kind.coalescing = false) :
    KeptAfterLine k fun t => (t.queue p).shows b where
  post s q x h := post_keeps_shows s p q b x hb h
  deferred s q o r x h := by
    rw [answerDeferred_same s (·.queue p) (fun _ _ _ => rfl) q o r x]; exact h
  line _ _ _ _ h := h
  time _ _ h := h
  count _ _ h := h
  resolve s x h := resolveOne_keeps (P := fun t => (t.queue p).shows b)
    (fun t q _ _ _ _ _ _ ht => post_keeps_shows t p q b _ hb ht) (fun _ _ _ ht => ht) (fun _ _ ht => ht) s x h

/-- A notification that its queue shows is noted when the state is settled. -/
theorem noted_of_shows {s u : State} {p : PortId} {b : NoteBody} (hb : b.kind ≠ .syncChange)
    (h : s.isOpen p = true → (s.queue p).enable.getLsbD b.kind.bit = true → (u.queue p).shows b) :
    s.noted u.settle p b := by
  intro ho he hov
  rw [settle_queue_eq] at hov ⊢
  rcases h ho he with hlost | ⟨n, hn, hbody⟩
  · rw [hov] at hlost; cases hlost
  · refine ⟨n.refresh u, List.mem_map_of_mem hn, ?_⟩
    rw [Note.refresh, if_neg fun hc => hb (hbody ▸ hc.2), hbody]

/-- An answer that is fixed when it is made stays as it is when the state is settled. -/
theorem mem_settle_responses {u : State} {p : PortId} {x : Response} (h : x ∈ (u.port p).responses)
    (hx : x.body.fixed = true) : x ∈ (u.settle.port p).responses := by
  rw [settle_port_eq]
  refine List.mem_map.mpr ⟨x, h, ?_⟩
  rw [Response.refresh, Body.refresh_fixed u p hx, ite_self]

/-! ### The event at the line itself -/

section
variable {s t : State} {k : LineId} (ht : ReachesLine s k t) {g : Program} {len : Phase}
include ht

theorem ReachesLine.swapped_hears (p : PortId) : (t.swapped len k g).isOpen p = s.isOpen p ∧
    ((t.swapped len k g).queue p).enable = (s.queue p).enable := by
  rw [← ht.isOpen, ← ht.enable]
  exact ⟨answerStager_isOpen t k _ _ p,
    congrArg NoteQueue.enable (answerStager_same t (·.queue p) (fun _ _ _ => rfl) k _ _)⟩

/-- The stager of a program swapped in is answered OK (R64). -/
theorem ReachesLine.swapped_responses {p : PortId} {id : Byte} {d : Deferred}
    (hg : (s.line k).staged = some ⟨g, some (p, id)⟩)
    (hd : (s.port p).deferred.find? (fun d => decide (d.owner = .line k)) = some d) :
    ⟨d.kind, d.id, .ok, .stage (lineByte k) s.time.frame (g.outOfRange len), s.count.serial⟩ ∈
      ((t.swapped len k g).port p).responses := by
  have hfind := (ht.deferred p).trans hd
  rw [← ht.line] at hg
  unfold swapped
  rw [port_modLine, answerStager_pending _ _ hg rfl hfind, port_modPort_same, ht.frame, ht.serial]
  exact List.mem_append_right _ (List.mem_singleton.mpr rfl)

end
end State

/-- The check writes its result as the statements do. -/
theorem checked_eq (g : Program) (len : Phase) : g.checked len =
    if len.toNat ≤ g.rise.toNat ∨ len.toNat ≤ g.fall.toNat then { g with force := .low } else g := by
  simp only [Program.checked, outOfRange_iff]

theorem outOfRange_eq (g : Program) (len : Phase) :
    g.outOfRange len = decide (len.toNat ≤ g.rise.toNat ∨ len.toNat ≤ g.fall.toNat) := by
  simp [Program.outOfRange]

/-- Settles O18: what the event at the line establishes, the rest of the event keeps. -/
theorem frameBoundarySwapsAndChecksPrograms : Obligations.FrameBoundarySwapsAndChecksPrograms := by
  intro s c k h hm
  obtain ⟨u, hexec, reached⟩ := State.exec_boundary_line h k
  have hmode : ∀ {t}, State.ReachesLine s k t → (t.line k).mode = .outputCycle := fun ht => by rw [ht.line]; exact hm
  have programs : ∀ a b, (∀ t, State.ReachesLine s k t →
      ((t.boundaryLine u.time.len s.planApplies k).line k).staged = b ∧
        ((t.boundaryLine u.time.len s.planApplies k).line k).active = a) →
      (u.settle.line k).staged = b ∧ (u.settle.line k).active = a := fun a b hk => by
    rw [State.settle_line, atPhase_staged, atPhase_active]
    exact reached _ (State.programs_keptAfterLine k a b) hk
  have reported : ∀ {v : State} {g : Program}, ((v.reportForced k g u.time.len).line k) = v.line k := fun {v g} =>
    State.reportForced_same v (·.line k) (fun _ _ _ => rfl) k g u.time.len
  have notes : ∀ p, (∀ t, State.ReachesLine s k t → s.isOpen p = true →
      (s.queue p).enable.getLsbD (NoteBody.programForced k s.time.frame).kind.bit = true →
      ((t.boundaryLine u.time.len s.planApplies k).queue p).shows (.programForced k s.time.frame)) →
      s.noted u.settle p (.programForced k s.time.frame) := fun p hk =>
    State.noted_of_shows nofun fun ho he =>
      reached _ (State.shows_keptAfterLine k p (b := .programForced k s.time.frame) rfl) fun t ht => hk t ht ho he
  refine ⟨u.settle, hexec, fun g hg => ?_, fun g hs hg => ?_⟩
  · obtain ⟨g, stager⟩ := g
    have hline : ∀ {t}, State.ReachesLine s k t → t.boundaryLine u.time.len s.planApplies k =
        (t.swapped u.time.len k g).reportForced k g u.time.len := fun ht =>
      State.boundaryLine_staged _ (hmode ht) (by rw [ht.line]; exact hg)
    obtain ⟨hstaged, hactive⟩ := programs (some (g.checked u.time.len)) none fun t ht => by
      rw [hline ht, reported, State.swapped_line]; exact ⟨rfl, rfl⟩
    refine ⟨hstaged, hactive.trans (by rw [checked_eq]; rfl), fun p id d hp hd => ?_, fun p ho hr hf => notes p ?_⟩
    · dsimp only at hp
      subst hp
      rw [State.settle_time, ← outOfRange_eq]
      refine State.mem_settle_responses (reached _ (State.response_keptAfterLine k p _) fun t ht => ?_) rfl
      rw [hline ht, State.reportForced_same _ (·.port p) (fun _ _ _ => rfl)]
      exact ht.swapped_responses hg hd
    · intro t ht hopen he
      have howner : ((t.swapped u.time.len k g).line k).owner = some p := by
        rw [State.swapped_line, ht.line]; exact ho
      obtain ⟨hopen', henable⟩ := ht.swapped_hears (g := g) (len := u.time.len) p
      have hshows := State.reportForced_shows howner hr hf (hopen'.trans hopen) (by rw [henable]; exact he)
      rw [State.swapped_time, ht.frame] at hshows
      rw [hline ht]
      exact hshows
  · have hstaged : ∀ {t}, State.ReachesLine s k t → (t.line k).staged = none := fun ht => by rw [ht.line]; exact hs
    have hactive : ∀ {t}, State.ReachesLine s k t → (t.line k).active = some g := fun ht => by rw [ht.line]; exact hg
    cases ha : s.planApplies with
    | false =>
      rw [ha] at programs
      refine ⟨?_, fun p _ hf => nomatch hf⟩
      have hprograms := programs (some g) none fun t ht => by
        rw [State.boundaryLine_unchecked (hstaged ht)]; exact ⟨hstaged ht, hactive ht⟩
      rw [hprograms.2]
      rfl
    | true =>
      rw [ha] at programs notes
      have hline : ∀ {t}, State.ReachesLine s k t → t.boundaryLine u.time.len true k =
          (t.rechecked u.time.len k g).reportForced k g u.time.len := fun ht =>
        State.boundaryLine_checked (hmode ht) (hstaged ht) (hactive ht)
      have hprograms := programs (some (g.checked u.time.len)) none fun t ht => by
        rw [hline ht, reported, State.rechecked_line]; exact ⟨hstaged ht, rfl⟩
      refine ⟨hprograms.2.trans (by rw [checked_eq]; simp), fun p ho _ hr hf => notes p fun t ht hopen he => ?_⟩
      have howner : ((t.rechecked u.time.len k g).line k).owner = some p := by
        rw [State.rechecked_line, ht.line]; exact ho
      have hshows := State.reportForced_shows howner hr hf ((ht.isOpen p).trans hopen)
        (by rw [← ht.enable] at he; exact he)
      have hframe : (t.rechecked u.time.len k g).time.frame = s.time.frame := ht.frame
      rw [hframe] at hshows
      rw [hline ht]
      exact hshows

end Sys2Proof.Machine
end

section
/-! PROOFS. The requests on a line (R55 to R59, R63, R68): LINE_DRIVE, CYCLE_STAGE, and what LINE_RELEASE and LINE_CONFIG do where a
line leaves its mode. -/

namespace Sys2Proof.Machine

/-! ### The operands -/

section
variable {b : Byte}

theorem modeOf_none (h : 3 < b.toNat) : modeOf b = none := by
  unfold modeOf
  rw [if_neg, if_neg, if_neg, if_neg] <;> rintro rfl <;> exact absurd h (by decide)
theorem driveOf_none (h : 2 < b.toNat) : driveOf b = none := by
  unfold driveOf
  rw [if_neg, if_neg, if_neg] <;> rintro rfl <;> exact absurd h (by decide)
theorem forceOf_none (h : 2 < b.toNat) : forceOf b = none := by
  unfold forceOf
  rw [if_neg, if_neg, if_neg] <;> rintro rfl <;> exact absurd h (by decide)
theorem yesNoOf_none (h : 1 < b.toNat) : yesNoOf b = none := by
  unfold yesNoOf
  rw [if_neg, if_neg] <;> rintro rfl <;> exact absurd h (by decide)
theorem levelOf_none (h : 1 < b.toNat) : levelOf b = none := by
  unfold levelOf
  rw [if_neg, if_neg] <;> rintro rfl <;> exact absurd h (by decide)
theorem edgeSelectOf_none (h : b = 0 ∨ 3 < b.toNat) : edgeSelectOf b = none := by
  unfold edgeSelectOf
  rw [if_neg, if_neg, if_neg] <;> rintro rfl <;> exact absurd h (by decide)

end

/-- Check 2 of R56 fails where a field is out of range. -/
theorem lineFieldsOf_none {m sf r e i : Byte}
    (h : 3 < m.toNat ∨ 2 < sf.toNat ∨ 1 < r.toNat ∨ e = 0 ∨ 3 < e.toNat ∨ 1 < i.toNat) :
    lineFieldsOf m sf r e i = none := by
  unfold lineFieldsOf
  split
  · next hm hsf hr he hi =>
    rcases h with h | h | h | h | h | h
    · rw [modeOf_none h] at hm; cases hm
    · rw [driveOf_none h] at hsf; cases hsf
    · rw [yesNoOf_none h] at hr; cases hr
    · rw [edgeSelectOf_none (Or.inl h)] at he; cases he
    · rw [edgeSelectOf_none (Or.inr h)] at he; cases he
    · rw [levelOf_none h] at hi; cases hi
  · rfl

theorem lineFieldsOf_codes (f : LineFields) :
    lineFieldsOf f.mode.code f.safe.code (flagByte f.retain) f.edge.code (levelCode f.initial) = some f := by
  simp only [lineFieldsOf, modeOf_code, driveOf_code, yesNoOf_flagByte, edgeSelectOf_code, levelOf_code]

namespace State

theorem entriesOn_eq_zero {s : State} {k : LineId} : s.entriesOn k = 0 ↔ ∀ x ∈ s.schedule.entries, x.line ≠ k := by
  simp [entriesOn, List.countP_eq_zero]

theorem entriesOn_ne_zero {s : State} {k : LineId} : s.entriesOn k ≠ 0 ↔ ∃ x ∈ s.schedule.entries, x.line = k := by
  rw [ne_eq, entriesOn_eq_zero]
  simp

@[simp] theorem marked_deferred (s : State) (p q : PortId) : ((s.marked p).port q).deferred = (s.port q).deferred := by
  rw [marked_port]
  split
  · next e => rw [e]
  · rfl

/-! ### LINE_DRIVE (R59) -/

section
variable {s : State} {p : PortId} (id : Byte) {line : Byte}

theorem lineDrive_notOwner (level : Byte) (h : s.notOwned p line) :
    s.lineDrive p id line level = s.respond p kindLineDrive id .notOwner (.drive line 0 0) := by
  unfold lineDrive
  split
  · rfl
  · next k hk => exact if_pos (h k hk)

theorem lineDrive_wrongMode (level : Byte) {k : LineId} {m : Mode} (h : s.ownsIn p line k m) (hm : m ≠ .outputEvent) :
    s.lineDrive p id line level = s.respond p kindLineDrive id .wrongMode (.drive line 0 0) := by
  obtain ⟨hk, ho, hmode⟩ := h
  simp [lineDrive, hk, ho, hmode, hm]

variable {k : LineId} (h : s.ownsIn p line k .outputEvent)
include h

theorem lineDrive_badValue {level : Byte} (hv : levelOf level = none) :
    s.lineDrive p id line level = s.respond p kindLineDrive id .badValue (.drive line 0 0) := by
  obtain ⟨hk, ho, hmode⟩ := h
  simp [lineDrive, hk, ho, hmode, hv]

theorem lineDrive_accepted {level : Byte} {v : Level} (hv : levelOf level = some v) : s.lineDrive p id line level =
    (s.modLine k (Line.drivenAt (some v))).respond p kindLineDrive id .ok (.drive line s.time.t s.time.epoch) := by
  obtain ⟨hk, ho, hmode⟩ := h
  simp [lineDrive, hk, ho, hmode, hv, handLevel_event s k v hmode]

end

/-! ### CYCLE_STAGE (R63) -/

section
variable {s : State} {p : PortId} (id : Byte) {line : Byte} (a b : Phase)

theorem cycleStage_notOwner (force : Byte) (h : s.notOwned p line) :
    s.cycleStage p id line a b force = s.refuseStage p id line .notOwner := by
  unfold cycleStage
  split
  · rfl
  · next k hk => exact if_pos (h k hk)

theorem cycleStage_wrongMode (force : Byte) {k : LineId} {m : Mode} (h : s.ownsIn p line k m) (hm : m ≠ .outputCycle) :
    s.cycleStage p id line a b force = s.refuseStage p id line .wrongMode := by
  obtain ⟨hk, ho, hmode⟩ := h
  simp [cycleStage, hk, ho, hmode, hm]

variable {a b} {k : LineId} (h : s.ownsIn p line k .outputCycle)
include h

theorem cycleStage_badValue {force : Byte}
    (hv : 2 < force.toNat ∨ s.time.len.toNat ≤ a.toNat ∨ s.time.len.toNat ≤ b.toNat) :
    s.cycleStage p id line a b force = s.refuseStage p id line .badValue := by
  obtain ⟨hk, ho, hmode⟩ := h
  cases hf : forceOf force with
  | none => simp [cycleStage, hk, ho, hmode, hf]
  | some f =>
    have hforce : ¬2 < force.toNat := fun h => by rw [forceOf_none h] at hf; cases hf
    have hrange : ¬(a.toNat < s.time.len.toNat ∧ b.toNat < s.time.len.toNat) := by omega
    simp only [cycleStage, hk, ho, hmode, hf, ne_eq, not_true_eq_false, if_false, if_neg hrange]

theorem cycleStage_accepted (f : Force) (ha : a.toNat < s.time.len.toNat) (hb : b.toNat < s.time.len.toNat) :
    s.cycleStage p id line a b f.code = s.acceptStage p id k ⟨a, b, f⟩ := by
  obtain ⟨hk, ho, hmode⟩ := h
  simp [cycleStage, hk, ho, hmode, forceOf_code, ha, hb]

end

/-- A program that takes an empty slot: the line and the link of the port change together. -/
theorem acceptStage_unstaged {s : State} (p : PortId) (id : Byte) {k : LineId} (g : Program)
    (h : (s.line k).staged = none) : (s.marked p).acceptStage p id k g =
      (s.modLine k fun l => { l with staged := some ⟨g, some (p, id)⟩ }).modPort p fun q =>
        { q with lastEdge := some s.count.serial, deferred := q.deferred ++ [⟨kindCycleStage, id, .line k⟩] } := by
  have hcomm : ∀ f, (s.marked p).modLine k f = (s.modLine k f).marked p := fun _ => rfl
  have hstaged : ((s.marked p).line k).staged = none := h
  unfold acceptStage
  rw [answerStager_unstaged _ _ hstaged, hcomm, marked, useCount, hold, modPort_modPort]
  rfl

theorem acceptStage_same {α : Type} (g : State → α) (hp : ∀ (s : State) p f, g (s.modPort p f) = g s)
    (hl : ∀ (s : State) k f, g (s.modLine k f) = g s) (s : State) (p : PortId) (id : Byte) (k : LineId) (x : Program) :
    g (s.acceptStage p id k x) = g s := by
  unfold acceptStage hold
  rw [hp, hl, answerStager_same s g hp]

theorem acceptStage_line (s : State) (p : PortId) (id : Byte) (k : LineId) (g : Program) (j : LineId) :
    (s.acceptStage p id k g).line j =
      if k = j then { s.line k with staged := some ⟨g, some (p, id)⟩ } else s.line j := by
  unfold acceptStage hold
  rw [line_modPort, line_modLine, answerStager_line, answerStager_line]

/-- A stager whose program is replaced is answered SUPERSEDED. -/
theorem acceptStage_superseded {s : State} (p : PortId) (id : Byte) {k : LineId} (g : Program) {x : Staged} {q : PortId}
    {i : Byte} {d : Deferred} (hx : (s.line k).staged = some x) (hq : x.stager = some (q, i))
    (hd : (s.port q).deferred.find? (fun d => decide (d.owner = .line k)) = some d) :
    ⟨d.kind, d.id, .superseded, .stage (lineByte k) 0 false, s.count.serial⟩ ∈
      ((s.acceptStage p id k g).port q).responses := by
  unfold acceptStage hold
  rw [answerStager_pending _ _ hx hq hd, port_modPort]
  split
  · next e =>
    subst e
    simp
  · simp

end State

/-- Settles O38, check by check. -/
theorem lineDriveSetsTheDrivenLevel : Obligations.LineDriveSetsTheDrivenLevel := by
  intro s p id line h
  refine ⟨fun level hn => ?_, fun level k m ho hm => ?_, fun k ho => ⟨fun level hv => ?_, fun v => ?_⟩⟩
  · exact answer_take_fixed h kindLineDrive id _ (State.lineDrive_notOwner (s := s.marked p) id level hn) rfl
  · exact answer_take_fixed h kindLineDrive id _ (State.lineDrive_wrongMode (s := s.marked p) id level ho hm) rfl
  · exact answer_take_fixed h kindLineDrive id _ (State.lineDrive_badValue (s := s.marked p) id ho (levelOf_none hv)) rfl
  · exact answer_take_effect h kindLineDrive id _ (u := s.modLine k (Line.drivenAt (some v)))
      (State.lineDrive_accepted (s := s.marked p) id ho (levelOf_code v))

/-- A line with another staged program settles where it did. -/
theorem atPhase_withStaged {ph : Phase} {l : Line} (h : l.atPhase ph = l) (x : Option Staged) :
    Line.atPhase ph { l with staged := x } = { l with staged := x } := by
  have hdriven := congrArg Line.driven h
  unfold Line.atPhase at hdriven ⊢
  dsimp only
  split at hdriven <;> simp_all

/-- Settles O39: the refusals check by check, and the slot, the deferred list and the replaced stager of an accepted request. -/
theorem cycleStageTakesTheStagedSlot : Obligations.CycleStageTakesTheStagedSlot := by
  intro s p id line a b h
  refine ⟨fun force r hr => ?_, fun k f ho ha hb => ?_⟩
  · refine answer_take_fixed h kindCycleStage id (State.cycleStage p id line a b force) ?_ rfl
    rcases hr with ⟨rfl, hn⟩ | ⟨rfl, k, m, ho, hm⟩ | ⟨rfl, ⟨k, ho⟩, hv⟩
    · exact State.cycleStage_notOwner (s := s.marked p) id a b force hn
    · exact State.cycleStage_wrongMode (s := s.marked p) id a b force ho hm
    · exact State.cycleStage_badValue (s := s.marked p) id ho hv
  · have hexec : exec (.cycleStage p id line a b f.code) s =
        .next ((s.marked p).acceptStage p id k ⟨a, b, f⟩).settle := by
      show answer ((s.linkCount p).take p kindCycleStage id true _) = _
      rw [answer_take_open h, State.cycleStage_accepted (s := s.marked p) id ho f ha hb]
    have htime : ((s.marked p).acceptStage p id k ⟨a, b, f⟩).time = s.time :=
      State.acceptStage_same (·.time) (fun _ _ _ => rfl) (fun _ _ _ => rfl) _ p id k _
    have hline := State.acceptStage_line (s.marked p) p id k ⟨a, b, f⟩
    refine ⟨fun hs => ?_, _, hexec, ?_, fun j hj => ?_, ?_, fun g q i d hg hq hd => ?_⟩
    · rw [hexec, State.acceptStage_unstaged p id _ hs]
      rfl
    · rw [State.settle_line, hline, if_pos rfl, htime]
      exact atPhase_withStaged (State.settled_line h.2.2 k) _
    · exact State.settle_line_of h.2.2 htime ((hline j).trans (if_neg (Ne.symm hj)))
    · rw [State.settle_port_eq]
      simp [refreshPort, State.acceptStage, State.hold, kindCycleStage]
    · have hd' := (congrArg (List.find? _) (State.marked_deferred s p q)).trans hd
      exact State.mem_settle_responses (State.acceptStage_superseded (s := s.marked p) p id _ hg hq hd') rfl

/-! ### A line that leaves its mode by a request (R55, R57, R68) -/

namespace State

/-- INPUT_STOPPED reaches each port whose subscription set contains the line, once. -/
theorem stopInput_queue (s : State) (k : LineId) (q : PortId) : (s.stopInput k).queue q =
    if (s.subs q).getLsbD k.val = true then (s.post q (.inputStopped k)).queue q else s.queue q := by
  refine forPorts_reaches_one (P := fun t => SameQueue q t s ∧ t.subs q = s.subs q) (Q := fun t => t.queue q =
    if (s.subs q).getLsbD k.val = true then (s.post q (.inputStopped k)).queue q else s.queue q) q (fun r t hr ht => ?_)
    (fun r t hr ht => ?_) (fun t ht => ?_) s ⟨⟨rfl, rfl, rfl⟩, rfl⟩
  · obtain ⟨⟨hopen, hqueue, hserial⟩, hsubs⟩ := ht
    split
    · exact ⟨⟨(post_isOpen t q r _).trans hopen, (post_queue_ne t _ hr).trans hqueue, by rw [post_count]; exact hserial⟩,
        (congrArg (fun x : Journal => x.subs[q]) (post_journal t r _)).trans hsubs⟩
    · exact ⟨⟨hopen, hqueue, hserial⟩, hsubs⟩
  · split
    · exact (post_queue_ne t _ hr).trans ht
    · exact ht
  · rw [ht.2]
    split
    · exact (ht.1.post _).queue
    · exact ht.1.queue

/-- The request that makes a line leave its mode: its staged program discarded, INPUT left, the line changed, and the request
answered OK. -/
def leaveMode (p : PortId) (kind id : Byte) (k : LineId) (f : Line → Line) (s : State) : State :=
  (((s.discardStaged k).leaveInput k).modLine k f).respond p kind id .ok (.line (lineByte k))

variable (p : PortId) (kind id : Byte) (k : LineId) (f : Line → Line) (s : State)

theorem discardStaged_same {α : Type} (g : State → α) (hp : ∀ (s : State) p f, g (s.modPort p f) = g s)
    (hl : ∀ (s : State) k f, g (s.modLine k f) = g s) : g (s.discardStaged k) = g s :=
  (hl _ _ _).trans (answerStager_same s g hp k _ _)

theorem leaveMode_same {α : Type} (g : State → α) (hq : ∀ (s : State) p f, g (s.modQueue p f) = g s)
    (hc : ∀ (s : State) f, g (s.modCount f) = g s) (hl : ∀ (s : State) k f, g (s.modLine k f) = g s)
    (hp : ∀ (s : State) p f, g (s.modPort p f) = g s) : g (s.leaveMode p kind id k f) = g s := by
  unfold leaveMode respond
  rw [hp, hl, leaveInput_same _ g hq hc, discardStaged_same _ _ g hp hl]

theorem leaveMode_serial : (s.leaveMode p kind id k f).count.serial = s.count.serial := by
  refine serial_of_stable ?_
  simp [leaveMode]

theorem leaveMode_line (j : LineId) : (s.leaveMode p kind id k f).line j =
    if k = j then f { s.line k with staged := none } else s.line j := by
  unfold leaveMode respond
  rw [line_modPort, line_modLine, (left_line s k).1]
  split
  · rfl
  · next hj =>
    rw [leaveInput_same _ (·.line j) (fun _ _ _ => rfl) (fun _ _ => rfl), discardStaged, line_modLine_ne _ _ hj,
      answerStager_line]

theorem leaveMode_queue (q : PortId) : (s.leaveMode p kind id k f).queue q =
    if (s.line k).mode = .input ∧ (s.subs q).getLsbD k.val = true then (s.post q (.inputStopped k)).queue q
    else s.queue q := by
  have hsame : SameQueue q (s.discardStaged k) s :=
    ⟨answerStager_isOpen s k _ _ q, discardStaged_same k s (·.queue q) (fun _ _ _ => rfl) fun _ _ _ => rfl,
      discardStaged_same k s (·.count.serial) (fun _ _ _ => rfl) fun _ _ _ => rfl⟩
  have hsubs : (s.discardStaged k).subs q = s.subs q :=
    discardStaged_same k s (·.subs q) (fun _ _ _ => rfl) fun _ _ _ => rfl
  have hmode : ((s.discardStaged k).line k).mode = (s.line k).mode := by simp [discardStaged]
  show ((s.discardStaged k).leaveInput k).queue q = _
  unfold leaveInput
  rw [hmode]
  by_cases hm : (s.line k).mode = .input
  · rw [if_pos hm]
    refine (stopInput_queue _ k q).trans ?_
    rw [hsubs, (hsame.post _).queue, hsame.queue]
    simp only [hm, true_and]
  · rw [if_neg hm, if_neg fun hc => hm hc.1]
    exact hsame.queue

/-- The link of a port after the request: the request's own answer comes last, after that of the stager. -/
theorem leaveMode_port (q : PortId) : (s.leaveMode p kind id k f).port q = if p = q then
      { (s.discardStaged k).port p with
        responses := ((s.discardStaged k).port p).responses ++ [⟨kind, id, .ok, .line (lineByte k), s.count.serial⟩] }
    else (s.discardStaged k).port q := by
  have hleave : ∀ q, ((s.discardStaged k).leaveInput k).port q = (s.discardStaged k).port q := fun q =>
    leaveInput_same _ (·.port q) (fun _ _ _ => rfl) (fun _ _ => rfl) k
  have hserial : ((s.discardStaged k).leaveInput k).count.serial = s.count.serial := serial_of_stable (by simp)
  unfold leaveMode respond
  rw [port_modPort, port_modLine, port_modLine, hleave, hleave, modLine_count, hserial]

section
variable {s k}

theorem discardStaged_port_unstaged (h : (s.line k).staged = none) (q : PortId) :
    (s.discardStaged k).port q = s.port q := by
  unfold discardStaged
  rw [port_modLine, answerStager_unstaged _ _ h]

/-- A pending CYCLE_STAGE of the line is answered CANCELLED. -/
theorem discardStaged_port_pending {x : Staged} {q : PortId} {i : Byte} {d : Deferred} (hx : (s.line k).staged = some x)
    (hq : x.stager = some (q, i)) (hd : (s.port q).deferred.find? (fun d => decide (d.owner = .line k)) = some d) :
    (s.discardStaged k).port q = { s.port q with
      deferred := (s.port q).deferred.eraseP fun d => decide (d.owner = .line k)
      responses := (s.port q).responses ++
        [⟨d.kind, d.id, .cancelled, .stage (lineByte k) 0 false, s.count.serial⟩] } := by
  unfold discardStaged
  rw [port_modLine, answerStager_pending _ _ hx hq hd, port_modPort_same]

end

/-- The responses of a port whose answers are fixed settle as they are. -/
theorem settle_responses_append {u : State} {p : PortId} {rs : List Response} {x : Response}
    (h : (u.port p).responses = rs ++ [x]) (hx : x.body.fixed = true) :
    (u.settle.port p).responses = rs.map (Response.refresh u p) ++ [x] := by
  have hself : x.refresh u p = x := by rw [Response.refresh, Body.refresh_fixed u p hx, ite_self]
  rw [settle_port_eq, refreshPort, h, List.map_append, List.map_cons, List.map_nil, hself]

end State

/-- What a request leaves that makes a line leave its mode for `l`, on a settled state. -/
structure LeavesMode (s : State) (p : PortId) (kind id : Byte) (k : LineId) (l : Line) (t : State) : Prop where
  line : t.line k = l
  others : ∀ j, j ≠ k → t.line j = s.line j
  schedule : t.schedule = s.schedule
  queue : ∀ q, t.queue q = if (s.line k).mode = .input ∧ (s.subs q).getLsbD k.val = true then
    (s.post q (.inputStopped k)).queue q else s.queue q
  last : (t.port p).responses.getLast? = some ⟨kind, id, .ok, .line (lineByte k), s.count.serial⟩
  alone : (s.line k).staged = none →
    (t.port p).responses = (s.port p).responses ++ [⟨kind, id, .ok, .line (lineByte k), s.count.serial⟩]
  cancelled : ∀ g q i d, (s.line k).staged = some g → g.stager = some (q, i) →
    (s.port q).deferred.find? (fun d => decide (d.owner = .line k)) = some d →
    ⟨d.kind, d.id, .cancelled, .stage (lineByte k) 0 false, s.count.serial⟩ ∈ (t.port q).responses ∧
      (t.port q).deferred = (s.port q).deferred.eraseP fun d => decide (d.owner = .line k)

/-- The marked count of a settled state, settled again after a line has left its mode. -/
theorem leavesMode_settle {s : State} (hs : s.settled) (p : PortId) (kind id : Byte) (k : LineId) {f : Line → Line}
    {l : Line} (hl : f { s.line k with staged := none } = l) (hset : l.atPhase s.time.phase = l) :
    LeavesMode s p kind id k l ((s.marked p).leaveMode p kind id k f).settle := by
  generalize hu : (s.marked p).leaveMode p kind id k f = u
  have same : ∀ {α : Type} (g : State → α), (∀ (s : State) p f, g (s.modQueue p f) = g s) →
      (∀ (s : State) f, g (s.modCount f) = g s) → (∀ (s : State) k f, g (s.modLine k f) = g s) →
      (∀ (s : State) p f, g (s.modPort p f) = g s) → g u = g s := fun g hq hc hl hp => by
    rw [← hu, State.leaveMode_same _ _ _ _ _ _ g hq hc hl hp]
    exact hp s p _
  have htime : u.time = s.time := same (·.time) (fun _ _ _ => rfl) (fun _ _ => rfl) (fun _ _ _ => rfl) fun _ _ _ => rfl
  have hsync : u.sync = s.sync := same (·.sync) (fun _ _ _ => rfl) (fun _ _ => rfl) (fun _ _ _ => rfl) fun _ _ _ => rfl
  have hserial : u.count.serial = s.count.serial := by rw [← hu, State.leaveMode_serial]; rfl
  have hline : ∀ j, u.line j = if k = j then l else s.line j := fun j => by
    rw [← hu, State.leaveMode_line, State.marked_line, hl, State.marked_line]
  have hport : ∀ q, u.port q = _ := fun q => (congrArg (State.port · q) hu.symm).trans (State.leaveMode_port ..)
  have hresponses := (congrArg Port.responses (hport p)).trans (congrArg Port.responses (if_pos rfl))
  refine ⟨?_, fun j hj => ?_, ?_, fun q => ?_, ?_, fun hn => ?_, fun g q i d hg hq hd => ?_⟩
  · rw [State.settle_line, hline, if_pos rfl, htime, hset]
  · exact State.settle_line_of hs htime ((hline j).trans (if_neg (Ne.symm hj)))
  · exact same (·.schedule) (fun _ _ _ => rfl) (fun _ _ => rfl) (fun _ _ _ => rfl) fun _ _ _ => rfl
  · have hqueue : u.queue q = _ := (congrArg (State.queue · q) hu.symm).trans (State.leaveMode_queue ..)
    split
    · next hc =>
      refine settle_queue_accept s u hs q _ nofun ((hqueue.trans (if_pos hc)).trans ?_) hserial hsync htime
      exact post_queue_congr _ _ _ _ (State.marked_isOpen s p q) rfl rfl
    · next hc => exact settle_queue_of s u hs q (hqueue.trans (if_neg hc)) hserial hsync htime
  · rw [State.settle_responses_append hresponses rfl, List.getLast?_append]
    rfl
  · have hlink : ∀ q, ((s.marked p).discardStaged k).port q = (s.marked p).port q :=
      State.discardStaged_port_unstaged (s := s.marked p) hn
    have hkept : ∀ q, (u.port q).isOpen = (s.port q).isOpen ∧ (u.port q).session = (s.port q).session := fun q => by
      rw [hport, hlink, hlink, State.marked_port, State.marked_port, if_pos rfl]
      split
      · next e => subst e; exact ⟨rfl, rfl⟩
      · exact ⟨rfl, rfl⟩
    have hjournal : u.journal = s.journal :=
      same (·.journal) (fun _ _ _ => rfl) (fun _ _ => rfl) (fun _ _ _ => rfl) fun _ _ _ => rfl
    have hsame : SameReports u s :=
      ⟨htime, hsync, same (·.plan) (fun _ _ _ => rfl) (fun _ _ => rfl) (fun _ _ _ => rfl) fun _ _ _ => rfl, hserial,
        same (·.schedule.entries) (fun _ _ _ => rfl) (fun _ _ => rfl) (fun _ _ _ => rfl) fun _ _ _ => rfl,
        by rw [hjournal], by rw [hjournal], fun q => (hkept q).1, fun q => (hkept q).2⟩
    have hold : ((s.marked p).port p).responses.map (Response.refresh u p) = (s.port p).responses := by
      rw [State.marked_port, if_pos rfl]
      exact (List.map_congr_left fun r hr => (hsame.response p r).trans (State.settled_response hs p r hr)).trans
        (List.map_id _)
    rw [State.settle_responses_append hresponses rfl, hlink, hold]
    rfl
  · have hd' := (congrArg (List.find? _) (State.marked_deferred s p q)).trans hd
    have hlink := State.discardStaged_port_pending (s := s.marked p) hg hq hd'
    have hin : ⟨d.kind, d.id, .cancelled, .stage (lineByte k) 0 false, s.count.serial⟩ ∈ (u.port q).responses ∧
        (u.port q).deferred = (s.port q).deferred.eraseP fun d => decide (d.owner = .line k) := by
      rw [hport, ← State.marked_deferred s p q]
      split
      · next e =>
        subst e
        rw [hlink]
        exact ⟨List.mem_append_left _ (List.mem_append_right _ (List.mem_singleton.mpr rfl)), rfl⟩
      · rw [hlink]
        exact ⟨List.mem_append_right _ (List.mem_singleton.mpr rfl), rfl⟩
    refine ⟨State.mem_settle_responses hin.1 rfl, ?_⟩
    rw [State.settle_port_eq]
    exact hin.2

/-! ### LINE_RELEASE (R55) -/

namespace State

section
variable {s : State} {p : PortId} (id : Byte)

theorem lineRelease_notOwner {line : Byte} (h : s.notOwned p line) :
    s.lineRelease p id line = s.answerRelease p id line .notOwner := by
  unfold lineRelease
  split
  · rfl
  · next k hk => exact if_pos (h k hk)

variable {k : LineId} (ho : (s.line k).owner = some p)
include ho

theorem lineRelease_busy (he : s.entriesOn k ≠ 0) :
    s.lineRelease p id (lineByte k) = s.answerRelease p id (lineByte k) .lineBusy := by
  simp [lineRelease, lineOf_lineByte, ho, he]

theorem lineRelease_accepted (he : s.entriesOn k = 0) :
    s.lineRelease p id (lineByte k) = s.leaveMode p kindLineRelease id k Line.toFree := by
  simp [lineRelease, lineOf_lineByte, ho, he, leaveMode, answerRelease]

end

/-! ### LINE_CONFIG (R56 to R58) -/

section
variable {s : State} {p : PortId} (id : Byte)

theorem lineConfig_notOwner {line : Byte} (m sf r e i : Byte) (h : s.notOwned p line) :
    s.lineConfig p id line m sf r e i = s.answerConfig p id line .notOwner := by
  unfold lineConfig
  split
  · rfl
  · next k hk => exact if_pos (h k hk)

variable {k : LineId} (ho : (s.line k).owner = some p) {m sf r e i : Byte}
include ho

theorem lineConfig_badValue (hf : lineFieldsOf m sf r e i = none) :
    s.lineConfig p id (lineByte k) m sf r e i = s.answerConfig p id (lineByte k) .badValue := by
  simp [lineConfig, lineOf_lineByte, ho, hf]

variable {f : LineFields} (hf : lineFieldsOf m sf r e i = some f)
include hf

theorem lineConfig_busy (hm : f.mode ≠ (s.line k).mode) (he : s.entriesOn k ≠ 0) :
    s.lineConfig p id (lineByte k) m sf r e i = s.answerConfig p id (lineByte k) .lineBusy := by
  simp [lineConfig, lineOf_lineByte, ho, hf, hm, he]

theorem lineConfig_same (hm : f.mode = (s.line k).mode) : s.lineConfig p id (lineByte k) m sf r e i =
    (s.modLine k (Line.withFields f)).answerConfig p id (lineByte k) .ok := by
  simp [lineConfig, lineOf_lineByte, ho, hf, hm, applyConfig]

theorem lineConfig_changed (hm : f.mode ≠ (s.line k).mode) (he : s.entriesOn k = 0) :
    s.lineConfig p id (lineByte k) m sf r e i =
      s.leaveMode p kindLineConfig id k fun l => (l.withFields f).enter f := by
  simp [lineConfig, lineOf_lineByte, ho, hf, hm, he, applyConfig, leaveMode, answerConfig]

end
end State

/-- A line that enters a mode, field by field (R57). -/
theorem enter_eq (f : LineFields) (l : Line) : (l.withFields f).enter f =
    { l with
      mode := f.mode, safe := f.safe, retain := f.retain, edge := f.edge, initial := f.initial, last := none, staged := none,
      driven := match f.mode with
        | .off => none
        | .input => none
        | .outputEvent => some f.initial
        | .outputCycle => some .low
      active := if f.mode = .outputCycle then some entryProgram else none } := by
  obtain ⟨m, sf, r, e, i⟩ := f
  cases m <;> rfl

/-- A line settles at the values it enters a mode with: the entry program is LOW (R57, R61). -/
theorem enter_atPhase (ph : Phase) (f : LineFields) (l : Line) :
    ((l.withFields f).enter f).atPhase ph = (l.withFields f).enter f := by
  obtain ⟨m, sf, r, e, i⟩ := f
  cases m <;> rfl

/-- Settles O36: the refusals, and the line that leaves its mode for OFF. -/
theorem lineReleaseFreesTheLine : Obligations.LineReleaseFreesTheLine := by
  intro s p id h
  refine ⟨fun line hn => ?_, fun k ho => ⟨fun hx => ?_, fun hx => ?_⟩⟩
  · exact answer_take_fixed h kindLineRelease id _ (State.lineRelease_notOwner (s := s.marked p) id hn) rfl
  · exact answer_take_fixed h kindLineRelease id _
      (State.lineRelease_busy (s := s.marked p) id ho (State.entriesOn_ne_zero.mpr hx)) rfl
  · have hleft := leavesMode_settle h.2.2 p kindLineRelease id k (f := Line.toFree) rfl
      (atPhase_idle s.time.phase (Or.inl nofun))
    refine ⟨_, ?_, hleft.line, ?_, hleft.others, hleft.schedule, hleft.queue, hleft.last, hleft.alone, hleft.cancelled⟩
    · show answer ((s.linkCount p).take p kindLineRelease id true _) = _
      rw [answer_take_open h, State.lineRelease_accepted (s := s.marked p) id ho (State.entriesOn_eq_zero.mpr hx)]
    · rw [State.settle_linePins, hleft.line]
      rfl

/-- Settles O37: the refusals, the request that repeats the mode, and the line that leaves its mode for another. -/
theorem lineConfigSetsTheFiveFields : Obligations.LineConfigSetsTheFiveFields := by
  intro s p id h
  refine ⟨fun line m sf r e i hn => ?_, fun k ho => ⟨fun m sf r e i hf => ?_, fun m sf r e i => ?_⟩⟩
  · exact answer_take_fixed h kindLineConfig id _ (State.lineConfig_notOwner (s := s.marked p) id m sf r e i hn) rfl
  · exact answer_take_fixed h kindLineConfig id _
      (State.lineConfig_badValue (s := s.marked p) id ho (lineFieldsOf_none hf)) rfl
  · have hfields := lineFieldsOf_codes ⟨m, sf, r, e, i⟩
    refine ⟨fun hm hx => ?_, fun hm => ?_, fun hm hx => ?_⟩
    · exact answer_take_fixed h kindLineConfig id _
        (State.lineConfig_busy (s := s.marked p) id ho hfields hm (State.entriesOn_ne_zero.mpr hx)) rfl
    · exact answer_take_effect h kindLineConfig id _ (u := s.modLine k (Line.withFields ⟨m, sf, r, e, i⟩))
        (State.lineConfig_same (s := s.marked p) id ho hfields hm)
    · have hleft := leavesMode_settle h.2.2 p kindLineConfig id k
        (f := fun l => (l.withFields ⟨m, sf, r, e, i⟩).enter ⟨m, sf, r, e, i⟩) rfl (enter_atPhase _ _ _)
      have hline := hleft.line
      rw [enter_eq] at hline
      refine ⟨_, ?_, congrArg Line.mode hline, (congrArg Line.owner hline).trans ho, congrArg Line.safe hline,
        congrArg Line.retain hline, congrArg Line.edge hline, congrArg Line.initial hline, congrArg Line.last hline,
        congrArg Line.staged hline, ?_, congrArg Line.active hline, hleft.others, hleft.schedule, hleft.last,
        hleft.cancelled, hleft.queue⟩
      · show answer ((s.linkCount p).take p kindLineConfig id true _) = _
        rw [answer_take_open h, State.lineConfig_changed (s := s.marked p) id ho hfields hm
          (State.entriesOn_eq_zero.mpr hx)]
      · refine (congrArg Line.driven hline).trans ?_
        cases m <;> rfl

end Sys2Proof.Machine
end

section
/-! PROOFS. Level changes taken (R66, R74, R78 to R82, R84, R85; log 28): what a capture leaves at the journal, the queues and the
count. -/

namespace Sys2Proof.Machine

/-! ### Sets of ports -/

theorem getLsbD_portSet (f : PortId → Bool) (p : PortId) : (portSet f).getLsbD p.val = f p := by
  unfold portSet allPorts
  rw [BitVec.getLsbD_ofBoolListLE]
  fin_cases p <;> rfl

theorem getLsbD_withPort (x : PortSet) (p q : PortId) :
    (withPort x p).getLsbD q.val = (x.getLsbD q.val || decide (p = q)) := by
  revert x p q
  decide

/-! ### The journal after a capture (R74, R75, R80 to R82) -/

/-- A journal with a record stored: the oldest one leaves a full list and each of its readers is charged one missed record
(R81, R82), the record is appended (R80) and the counter moves on (R75). -/
def Journal.store (j : Journal) (r : Record) : Journal where
  records := (if j.records.length < 256 then j.records else j.records.tail) ++ [r]
  counter := advanceCounter (((if j.records.length < 256 then j.records else j.records.tail) ++ [r]).map (·.sequence)) j.counter
  subs := j.subs
  missed := Vector.ofFn fun p : PortId =>
    if j.records.length < 256 then j.missed[p]
    else if (j.records.head?.any fun o => o.readers.getLsbD p.val) = true then satInc 65535 j.missed[p]
    else j.missed[p]

namespace State

/-- The record of a capture in the count in progress. -/
def recordOf (s : State) (k : LineId) (e : Edge) : Record :=
  ⟨s.journal.counter, k, e, s.time.t, s.time.frame, s.time.phase, s.sync.state, s.time.epoch, s.readersOf k, s.count.serial⟩

/-- The state with the capture of a line stored for its readers, before JOURNAL_READY is considered. -/
def stored (s : State) (k : LineId) (e : Edge) : State := { s with journal := s.journal.store (s.recordOf k e) }

section
variable (s : State) (k : LineId) (e : Edge)

/-- Each reader of the record that leaves a full list is charged one missed record (R82). -/
theorem evict_missed (p : PortId) : s.evict.missed p =
    if s.journal.records.length < 256 then s.missed p
    else if (s.journal.records.head?.any fun o => o.readers.getLsbD p.val) = true then satInc 65535 (s.missed p)
    else s.missed p := by
  unfold evict
  split
  · next h => rw [if_pos (show _ < 256 from h)]
  · next h =>
    rw [if_neg (show ¬_ < 256 from h)]
    split
    · next hr => rw [hr]; rfl
    · next o os hr =>
      rw [hr, List.head?_cons, Option.any_some]
      refine forPorts_reaches_one (P := fun t => t.missed p = s.missed p) (Q := fun t => t.missed p =
        if o.readers.getLsbD p.val = true then satInc 65535 (s.missed p) else s.missed p) p (fun q t hq ht => ?_)
        (fun q t hq ht => ?_) (fun t ht => ?_) _ rfl
      · split
        · exact (vector_set_get_ne _ _ hq).trans ht
        · exact ht
      · split
        · exact (vector_set_get_ne _ _ hq).trans ht
        · exact ht
      · split
        · rw [← ht]
          exact vector_set_get_same _ _ _
        · exact ht

theorem stored_missed (p : PortId) : (s.stored k e).missed p =
    if s.journal.records.length < 256 then s.missed p
    else if (s.journal.records.head?.any fun o => o.readers.getLsbD p.val) = true then satInc 65535 (s.missed p)
    else s.missed p := Vector.getElem_ofFn p.isLt

/-- Eviction and appending leave the stored journal and nothing else. -/
theorem append_evict : s.evict.append k e (s.readersOf k) = s.stored k e := by
  have hrest : { s.evict with journal := s.journal } = s :=
    evict_same s (fun t => { t with journal := s.journal }) (fun _ _ => rfl) fun _ _ _ => rfl
  have hcounter : s.evict.journal.counter = s.journal.counter :=
    evict_same s (·.journal.counter) (fun _ _ => rfl) fun _ _ _ => rfl
  have hsubs : s.evict.journal.subs = s.journal.subs :=
    evict_same s (·.journal.subs) (fun _ _ => rfl) fun _ _ _ => rfl
  have hmissed : s.evict.journal.missed = (s.journal.store (s.recordOf k e)).missed :=
    vector_ext_fin fun p => (evict_missed s p).trans (stored_missed s k e p).symm
  have hevict : s.evict = { s with journal := ⟨s.evict.journal.records, s.evict.journal.counter, s.evict.journal.subs,
      s.evict.journal.missed⟩ } := congrArg (fun t => { t with journal := s.evict.journal }) hrest
  rw [hevict, evict_records, hcounter, hsubs, hmissed]
  rfl

theorem stored_records : (s.stored k e).journal.records =
    (if s.journal.records.length < 256 then s.journal.records else s.journal.records.tail) ++ [s.recordOf k e] := rfl

end

/-! ### The ports for which a capture meets a case of R84 -/

section
variable (s : State) (k : LineId) (e : Edge) (p : PortId)

theorem stored_unread_room (h : s.journal.records.length < 256) : (s.stored k e).unread p =
    s.unread p ++ if (s.readersOf k).getLsbD p.val = true then [s.recordOf k e] else [] := by
  unfold unread
  rw [stored_records, if_pos h, List.filter_append, List.filter_singleton, cond_eq_ite]
  rfl

theorem stored_unread_full {o : Record} {os : List Record} (h : ¬s.journal.records.length < 256)
    (hr : s.journal.records = o :: os) : (s.stored k e).unread p = (os ++ [s.recordOf k e]).filter
      fun r => r.readers.getLsbD p.val := by
  unfold unread
  rw [stored_records, if_neg h, hr, List.tail_cons]

/-- A capture leaves the unread count of a reader with nothing unread, or the missed count of a reader of the evicted record with
nothing missed, above 0 (R84). -/
theorem readyCase_stored : s.readyCase (s.stored k e) p = true ↔
    (s.readersOf k).getLsbD p.val = true ∧ s.unread p = [] ∨
      256 ≤ s.journal.records.length ∧ s.missed p = 0 ∧
        ∃ o os, s.journal.records = o :: os ∧ o.readers.getLsbD p.val = true := by
  rw [readyCase_iff, stored_missed]
  unfold unreadCount
  rw [ne_eq, List.length_eq_zero_iff, List.length_eq_zero_iff]
  by_cases h : s.journal.records.length < 256
  · rw [stored_unread_room s k e p h, if_pos h]
    cases hb : (s.readersOf k).getLsbD p.val <;> simp <;> omega
  · rw [if_neg h]
    cases hr : s.journal.records with
    | nil => rw [hr] at h; exact absurd (by decide) h
    | cons o os =>
      have hunread : s.unread p = [] ↔ ¬o.readers.getLsbD p.val = true ∧ os.filter (fun r => r.readers.getLsbD p.val) = [] := by
        unfold unread
        rw [hr, List.filter_cons]
        split <;> simp_all
      have hnew : (s.recordOf k e).readers = s.readersOf k := rfl
      rw [stored_unread_full s k e p h hr, hunread, List.filter_append, List.filter_singleton, hnew]
      have hfull : 256 ≤ (o :: os).length := hr ▸ Nat.not_lt.mp h
      refine or_congr ?_ ?_
      · cases (s.readersOf k).getLsbD p.val <;> simp
      · rw [List.head?_cons, Option.any_some, and_iff_right hfull]
        refine and_congr_right fun hm => ?_
        have hsome : (∃ o' os', o :: os = o' :: os' ∧ o'.readers.getLsbD p.val = true) ↔ o.readers.getLsbD p.val = true := by
          simp
        rw [hsome, hm]
        cases o.readers.getLsbD p.val <;> simp [satInc]

end

/-! ### What a capture leaves (R78 to R82, R84, R85) -/

/-- The queue of a port after a post to it (R158). -/
def postedQueue (s : State) (p : PortId) (b : NoteBody) : NoteQueue :=
  if s.isOpen p && (s.queue p).enable.getLsbD b.kind.bit then (s.queue p).accept s.count.serial b else s.queue p

theorem post_queue_eq (s : State) (p : PortId) (b : NoteBody) : (s.post p b).queue p = s.postedQueue p b := by
  unfold post postedQueue
  split
  · exact queue_modQueue_same _ _ _
  · rfl

/-- The notification of a port whose unread or missed count leaves 0 (R85). -/
def readyBody (s : State) (k : LineId) (e : Edge) (p : PortId) : NoteBody :=
  .journalReady ((s.stored k e).unreadCount p) ((s.stored k e).missed p)

/-- The queue of a port after a capture: JOURNAL_READY is posted at the first case of R84 in the count. -/
def readyQueue (s : State) (k : LineId) (e : Edge) (p : PortId) : NoteQueue :=
  if s.readyCase (s.stored k e) p && !s.count.readyPosted.getLsbD p.val then s.postedQueue p (s.readyBody k e p)
  else s.queue p

/-- The ports for which the count has met a case of R84 after a capture. -/
def readyPorts (s : State) (k : LineId) (e : Edge) : PortSet :=
  portSet fun p => s.count.readyPosted.getLsbD p.val || s.readyCase (s.stored k e) p

/-- The state after a capture that has readers. -/
def afterCapture (s : State) (k : LineId) (e : Edge) : State :=
  { s.stored k e with
    notes := Vector.ofFn (s.readyQueue k e)
    count := { s.count with readyPosted := s.readyPorts k e } }

section
variable (s : State) (k : LineId) (e : Edge)

theorem capture_none (h : s.readersOf k = 0) : s.capture k e = s := if_pos h

/-- What a consideration changes beside the queue and the mark of its port. -/
theorem considerReady_keeps {α : Type} (g : State → α) (hq : ∀ (s : State) p f, g (s.modQueue p f) = g s)
    (hc : ∀ (s : State) x, g (s.modCount fun c => { c with readyPosted := x }) = g s) (before t : State) (p : PortId) :
    g (considerReady before p t) = g t := by
  rcases considerReady_cases t before p with e | ⟨_, _, e⟩ <;> rw [e]
  exact (hc _ (withPort (t.post p _).count.readyPosted p)).trans (post_same g hq _ _ _)

theorem considerReady_posted (before t : State) (p q : PortId) :
    (considerReady before p t).count.readyPosted.getLsbD q.val =
      (t.count.readyPosted.getLsbD q.val || decide (p = q) && before.readyCase t p) := by
  unfold considerReady
  split
  · next h =>
    rw [(Bool.and_eq_true_iff.mp h).1, Bool.and_true]
    show (withPort (t.post p _).count.readyPosted p).getLsbD q.val = _
    rw [post_count, getLsbD_withPort]
  · next h =>
    by_cases hpq : p = q
    · subst hpq
      cases hc : before.readyCase t p <;> simp_all
    · simp [hpq]

/-- What the fold over the ports has reached at a port that is still to be considered. -/
structure AwaitsReady (s : State) (k : LineId) (e : Edge) (p : PortId) (t : State) : Prop where
  journal : t.journal = (s.stored k e).journal
  ports : t.ports = s.ports
  serial : t.count.serial = s.count.serial
  queue : t.queue p = s.queue p
  posted : t.count.readyPosted.getLsbD p.val = s.count.readyPosted.getLsbD p.val

namespace AwaitsReady

variable {s k e} {p : PortId} {t : State} (h : AwaitsReady s k e p t)
include h

theorem consider_other {q : PortId} (hq : q ≠ p) : AwaitsReady s k e p (considerReady s q t) where
  journal := (considerReady_keeps (·.journal) (fun _ _ _ => rfl) (fun _ _ => rfl) s t q).trans h.journal
  ports := (considerReady_keeps (·.ports) (fun _ _ _ => rfl) (fun _ _ => rfl) s t q).trans h.ports
  serial := (considerReady_keeps (·.count.serial) (fun _ _ _ => rfl) (fun _ _ => rfl) s t q).trans h.serial
  queue := (considerReady_queue_ne t s hq).trans h.queue
  posted := by rw [considerReady_posted, decide_eq_false hq, Bool.false_and, Bool.or_false, h.posted]

theorem readyCase : s.readyCase t p = s.readyCase (s.stored k e) p := by
  unfold State.readyCase unreadCount unread missed
  rw [h.journal]

theorem consider_queue : (considerReady s p t).queue p = s.readyQueue k e p := by
  have hunread : t.unreadCount p = (s.stored k e).unreadCount p := by unfold unreadCount unread; rw [h.journal]
  have hmissed : t.missed p = (s.stored k e).missed p := by unfold missed; rw [h.journal]
  have hopen : t.isOpen p = s.isOpen p := by unfold isOpen port; rw [h.ports]
  unfold considerReady readyQueue readyBody
  rw [h.readyCase, h.posted, hunread, hmissed]
  split
  · rw [← post_queue_eq]
    exact post_queue_congr t s p _ hopen h.queue h.serial
  · exact h.queue

theorem consider_posted : (considerReady s p t).count.readyPosted.getLsbD p.val = (s.readyPorts k e).getLsbD p.val := by
  unfold readyPorts
  rw [considerReady_posted, getLsbD_portSet, h.readyCase, h.posted, decide_eq_true rfl, Bool.true_and]

end AwaitsReady

/-- The fold over the ports considers each of them once, with the journal as stored. -/
theorem consider_all (p : PortId) : (forPorts (considerReady s) (s.stored k e)).queue p = s.readyQueue k e p ∧
    (forPorts (considerReady s) (s.stored k e)).count.readyPosted.getLsbD p.val = (s.readyPorts k e).getLsbD p.val :=
  forPorts_reaches_one (P := AwaitsReady s k e p) (Q := fun t => t.queue p = s.readyQueue k e p ∧
      t.count.readyPosted.getLsbD p.val = (s.readyPorts k e).getLsbD p.val) p (fun _ _ hq ht => ht.consider_other hq)
    (fun q t hq ht => ⟨(considerReady_queue_ne t s hq).trans ht.1, by
      rw [considerReady_posted, decide_eq_false hq, Bool.false_and, Bool.or_false, ht.2]⟩)
    (fun _ ht => ⟨ht.consider_queue, ht.consider_posted⟩) _ ⟨rfl, rfl, rfl, rfl, rfl⟩

/-- A count is its marks of JOURNAL_READY and the rest. -/
theorem count_eq_of {a b : Count} (h : { a with readyPosted := 0 } = { b with readyPosted := 0 })
    (hr : a.readyPosted = b.readyPosted) : a = b := by
  cases a
  cases b
  simp_all

theorem capture_eq (h : s.readersOf k ≠ 0) : s.capture k e = s.afterCapture k e := by
  have hkeeps : ∀ {α : Type} (g : State → α), (∀ (s : State) p f, g (s.modQueue p f) = g s) →
      (∀ (s : State) x, g (s.modCount fun c => { c with readyPosted := x }) = g s) →
      g (forPorts (considerReady s) (s.stored k e)) = g (s.stored k e) := fun g hq hc =>
    forPorts_same g (fun p t => considerReady_keeps g hq hc s t p) _
  have hnotes : (forPorts (considerReady s) (s.stored k e)).notes = Vector.ofFn (s.readyQueue k e) :=
    vector_ext_fin fun p => (consider_all s k e p).1.trans (Vector.getElem_ofFn p.isLt).symm
  have hcount : (forPorts (considerReady s) (s.stored k e)).count = { s.count with readyPosted := s.readyPorts k e } :=
    count_eq_of (hkeeps (fun t => { t.count with readyPosted := 0 }) (fun _ _ _ => rfl) fun _ _ => rfl)
      (BitVec.eq_of_getLsbD_eq fun i hi => (consider_all s k e ⟨i, hi⟩).2)
  have hrest : { forPorts (considerReady s) (s.stored k e) with notes := s.notes, count := s.count } = s.stored k e :=
    hkeeps (fun t => { t with notes := s.notes, count := s.count }) (fun _ _ _ => rfl) fun _ _ => rfl
  unfold capture
  rw [if_neg h, append_evict]
  calc forPorts (considerReady s) (s.stored k e)
    _ = { s.stored k e with
          notes := (forPorts (considerReady s) (s.stored k e)).notes
          count := (forPorts (considerReady s) (s.stored k e)).count } :=
        congrArg (fun t => { t with
          notes := (forPorts (considerReady s) (s.stored k e)).notes
          count := (forPorts (considerReady s) (s.stored k e)).count }) hrest
    _ = s.afterCapture k e := by
        rw [hnotes, hcount]
        rfl

end
end State
end Sys2Proof.Machine
end

section
/-! PROOFS. Level changes taken before and after the end of the count is shown (R66, R74, R79): a command that takes several
changes and the commands that take them one by one end alike. -/

namespace Sys2Proof.Machine

/-! ### An operation before and after the end of the count is shown -/

/-- A queue brought to the end of the count that a state shows. -/
def NoteQueue.refreshed (s : State) (q : NoteQueue) : NoteQueue := { q with entries := q.entries.map (Note.refresh s) }

theorem Note.refresh_kind (s : State) (n : Note) : (n.refresh s).body.kind = n.body.kind := by
  unfold Note.refresh
  split
  · next h => exact h.2.symm
  · rfl

theorem Note.refresh_repeats (s : State) (n : Note) : (n.refresh s).repeats = n.repeats := by
  unfold Note.refresh
  split <;> rfl

theorem Note.refresh_number (s : State) (n : Note) : (n.refresh s).number = n.number := by
  unfold Note.refresh
  split <;> rfl

theorem Note.refresh_of_kind (s : State) {n : Note} (h : n.body.kind ≠ .syncChange) : n.refresh s = n :=
  if_neg fun hc => h hc.2

namespace NoteQueue

theorem bump_refreshed (s : State) (q : NoteQueue) : (q.refreshed s).bump = q.bump.refreshed s := by
  have hnumbers : (q.refreshed s).numbers = q.numbers := by
    have hnumber : (fun n : Note => n.number) ∘ Note.refresh s = fun n => n.number := funext (Note.refresh_number s)
    unfold numbers refreshed
    rw [List.map_map, hnumber]
  unfold bump
  rw [hnumbers]
  rfl

/-- A post of another kind than SYNC_CHANGE may come before or after the queue is brought to the end of the count. -/
theorem accept_refreshed (s : State) (stamp : Nat) {b : NoteBody} (hb : b.kind ≠ .syncChange) (q : NoteQueue) :
    (q.refreshed s).accept stamp b = (q.accept stamp b).refreshed s := by
  have hany : (q.refreshed s).entries.any (fun n => decide (n.body.kind = b.kind)) =
      q.entries.any fun n => decide (n.body.kind = b.kind) := by
    unfold refreshed
    rw [List.any_map]
    exact congrArg q.entries.any (funext fun n => by rw [Function.comp, Note.refresh_kind])
  have hlength : (q.refreshed s).entries.length = q.entries.length := List.length_map ..
  unfold accept
  rw [hany, hlength]
  split
  · unfold refire
    rw [← bump_refreshed]
    refine congrArg bump ?_
    unfold refreshed
    rw [mk.injEq, List.map_map, List.map_map]
    refine ⟨List.map_congr_left fun n _ => ?_, rfl, rfl, rfl⟩
    rw [Function.comp, Function.comp, Note.refresh_kind, Note.refresh_repeats]
    split
    · exact (Note.refresh_of_kind s hb).symm
    · rfl
  · split
    · unfold create
      rw [← bump_refreshed]
      refine congrArg bump ?_
      unfold refreshed
      rw [List.map_append, List.map_singleton, Note.refresh_of_kind s (n := ⟨_, b, _, stamp⟩) hb]
    · unfold lose
      rw [← bump_refreshed]
      rfl

end NoteQueue

theorem Record.refresh_readers (s : State) (r : Record) : (r.refresh s).readers = r.readers := by rw [Record.refresh_eq]

theorem Record.refresh_sequence (s : State) (r : Record) : (r.refresh s).sequence = r.sequence := by rw [Record.refresh_eq]

/-! What a state shows absorbs what another state of the same count showed before. -/

section
variable {a b : State} (h : a.count.serial = b.count.serial)
include h

theorem Record.refresh_absorbs (r : Record) : (r.refresh a).refresh b = r.refresh b := by
  unfold Record.refresh
  rw [h]
  split <;> simp_all

theorem Note.refresh_absorbs (n : Note) : (n.refresh a).refresh b = n.refresh b := by
  unfold Note.refresh
  rw [h]
  split
  · next hc => simp [hc.1, State.syncBody, NoteBody.kind]
  · rfl

theorem Body.refresh_absorbs (p : PortId) (x : Body) : (x.refresh a p).refresh b p = x.refresh b p := by
  have hitem : ∀ i : JournalItem, (i.refresh a).refresh b = i.refresh b := fun i => by
    cases i <;> simp only [JournalItem.refresh, Record.refresh_absorbs h]
  have hhead : ∀ x : NoteHead, (x.refresh a).refresh b = x.refresh b := fun x => by
    cases x <;> simp only [NoteHead.refresh, Note.refresh_absorbs h]
  cases x <;> simp [Body.refresh, State.openReport, hitem, hhead]

theorem Response.refresh_absorbs (p : PortId) (r : Response) : (r.refresh a p).refresh b p = r.refresh b p := by
  unfold Response.refresh
  rw [h]
  split <;> simp_all [Body.refresh_absorbs h]

theorem refreshPort_absorbs (p : PortId) (q : Port) : refreshPort b p (refreshPort a p q) = refreshPort b p q := by
  unfold refreshPort
  rw [List.map_map]
  exact congrArg (fun rs => { q with responses := rs }) (List.map_congr_left fun r _ => Response.refresh_absorbs h p r)

end

/-- A line shows its phase whatever its last sample is. -/
theorem Line.atPhase_withLast (ph : Phase) (v : Option Level) (l : Line) :
    ({ l with last := v } : Line).atPhase ph = { l.atPhase ph with last := v } := by
  obtain ⟨mode, _, _, _, _, _, _, _, active, _⟩ := l
  cases mode <;> cases active <;> rfl

namespace State

section
variable (s : State) (k : LineId) (e : Edge)

theorem settle_readersOf : s.settle.readersOf k = s.readersOf k :=
  congrArg portSet (funext fun p => congrArg (· && _) (settle_isOpen s p))

theorem settle_recordOf : s.settle.recordOf k e = s.recordOf k e := by
  unfold recordOf
  rw [settle_readersOf]
  rfl

/-- A record of the count in progress is stored as the end of the count shows it (R74). -/
theorem recordOf_refresh : (s.recordOf k e).refresh s = s.recordOf k e := by
  rw [Record.refresh_eq]
  unfold recordOf
  rw [if_pos rfl]

theorem settle_stored_journal :
    (s.settle.stored k e).journal =
      { (s.stored k e).journal with records := (s.stored k e).journal.records.map (Record.refresh s) } := by
  have hsequence : (fun r : Record => r.sequence) ∘ Record.refresh s = fun r => r.sequence :=
    funext (Record.refresh_sequence s)
  unfold stored Journal.store
  rw [settle_recordOf, settle_journal, Journal.mk.injEq]
  have hrecords : (if (s.journal.records.map (Record.refresh s)).length < 256 then s.journal.records.map (Record.refresh s)
      else (s.journal.records.map (Record.refresh s)).tail) ++ [s.recordOf k e] =
      ((if s.journal.records.length < 256 then s.journal.records else s.journal.records.tail) ++ [s.recordOf k e]).map
        (Record.refresh s) := by
    rw [List.map_append, List.map_singleton, recordOf_refresh, List.length_map, apply_ite (List.map _), List.map_tail]
  refine ⟨hrecords, ?_, rfl, ?_⟩
  · dsimp only
    rw [hrecords, List.map_map, hsequence]
  · dsimp only
    simp only [List.length_map, List.head?_map, Option.any_map, Record.refresh_readers]

/-- The unread records of a port are counted alike before and after the end of the count is shown. -/
theorem unreadCount_of_refreshed {a b : State} (h : a.journal.records = b.journal.records.map (Record.refresh s)) (p : PortId) :
    a.unreadCount p = b.unreadCount p := by
  unfold unreadCount unread
  rw [h, List.filter_map, List.length_map]
  simp only [Function.comp_def, Record.refresh_readers]

theorem settle_stored_unreadCount (p : PortId) : (s.settle.stored k e).unreadCount p = (s.stored k e).unreadCount p :=
  unreadCount_of_refreshed s (congrArg Journal.records (settle_stored_journal s k e)) p

theorem settle_stored_missed (p : PortId) : (s.settle.stored k e).missed p = (s.stored k e).missed p := by
  unfold missed
  rw [settle_stored_journal]

theorem settle_readyCase (p : PortId) :
    s.settle.readyCase (s.settle.stored k e) p = s.readyCase (s.stored k e) p := by
  have hunread : s.settle.unreadCount p = s.unreadCount p := unreadCount_of_refreshed s (congrArg Journal.records s.settle_journal) p
  have hmissed : s.settle.missed p = s.missed p := rfl
  unfold readyCase
  rw [settle_stored_unreadCount, settle_stored_missed, hunread, hmissed]

theorem settle_readyPorts : s.settle.readyPorts k e = s.readyPorts k e := by
  unfold readyPorts
  simp only [settle_readyCase]
  rfl

theorem settle_readyQueue (p : PortId) : s.settle.readyQueue k e p = (s.readyQueue k e p).refreshed s := by
  have hposted : s.settle.count = s.count := rfl
  have hqueue : s.settle.queue p = (s.queue p).refreshed s := settle_queue_eq s p
  have henable : ((s.queue p).refreshed s).enable = (s.queue p).enable := rfl
  unfold readyQueue postedQueue readyBody
  rw [settle_readyCase, settle_stored_unreadCount, settle_stored_missed, hposted, hqueue, settle_isOpen, henable]
  split
  · split
    · exact NoteQueue.accept_refreshed s _ (fun hk => NoteKind.noConfusion hk) _
    · rfl
  · rfl

/-! A capture that has readers, on a state brought to the end of the count and on the state itself. -/

theorem settle_after_journal : (s.settle.afterCapture k e).journal = { (s.afterCapture k e).journal with
    records := (s.afterCapture k e).journal.records.map (Record.refresh s) } := settle_stored_journal s k e

theorem sameReports_after : SameReports (s.settle.afterCapture k e) (s.afterCapture k e) where
  time := rfl
  sync := rfl
  plan := rfl
  serial := rfl
  entries := rfl
  records := (congrArg (List.length ∘ Journal.records) (settle_after_journal s k e)).trans (List.length_map _)
  missed := by rw [settle_after_journal]
  isOpen := settle_isOpen s
  session := s.sameReports_settle.session

theorem after_serial : s.count.serial = (s.afterCapture k e).count.serial := rfl

theorem after_queue (p : PortId) : (s.afterCapture k e).queue p = s.readyQueue k e p := Vector.getElem_ofFn p.isLt

theorem settle_after_lines : (s.settle.afterCapture k e).settle.lines = (s.afterCapture k e).settle.lines :=
  vector_ext_fin fun j => (settle_line (s.settle.afterCapture k e) j).trans
    ((congrArg (Line.atPhase s.time.phase) (settle_line s j)).trans
      ((Line.atPhase_atPhase _ _).trans (settle_line (s.afterCapture k e) j).symm))

theorem settle_after_notes : (s.settle.afterCapture k e).settle.notes = (s.afterCapture k e).settle.notes :=
  vector_ext_fin fun p => by
    refine (settle_queue_eq (s.settle.afterCapture k e) p).trans (Eq.trans ?_ (settle_queue_eq (s.afterCapture k e) p).symm)
    have hbefore : (s.settle.afterCapture k e).queue p = ((s.afterCapture k e).queue p).refreshed s := by
      rw [after_queue, after_queue, settle_readyQueue]
    rw [hbefore, funext (sameReports_after s k e).note]
    unfold NoteQueue.refreshed
    rw [List.map_map]
    exact congrArg (fun es => { (s.afterCapture k e).queue p with entries := es })
      (List.map_congr_left fun n _ => Note.refresh_absorbs (after_serial s k e) n)

theorem settle_after_journals : (s.settle.afterCapture k e).settle.journal = (s.afterCapture k e).settle.journal := by
  rw [settle_journal, settle_journal, funext (sameReports_after s k e).record, settle_after_journal, List.map_map]
  exact congrArg (fun rs => { (s.afterCapture k e).journal with records := rs })
    (List.map_congr_left fun r _ => Record.refresh_absorbs (after_serial s k e) r)

theorem settle_after_ports : (s.settle.afterCapture k e).settle.ports = (s.afterCapture k e).settle.ports :=
  vector_ext_fin fun p => by
    have hport : refreshPort (s.settle.afterCapture k e) p = refreshPort (s.afterCapture k e) p := by
      unfold refreshPort
      rw [funext ((sameReports_after s k e).response p)]
    rw [settle_ports_get, settle_ports_get, hport]
    exact (congrArg (refreshPort (s.afterCapture k e) p) (settle_ports_get s p)).trans
      (refreshPort_absorbs (after_serial s k e) p _)

/-- A capture leaves the same at the end of the count, be its state brought to that end before it or not. -/
theorem settle_capture : (s.settle.capture k e).settle = (s.capture k e).settle := by
  by_cases h : s.readersOf k = 0
  · rw [capture_none s k e h, capture_none _ k e ((settle_readersOf s k).trans h)]
    exact settle_settled s
  · rw [capture_eq s k e h, capture_eq _ k e (settle_readersOf s k ▸ h)]
    refine ext_fields rfl rfl rfl rfl rfl rfl rfl rfl (settle_after_lines s k e) (settle_after_journals s k e) rfl
      (settle_after_ports s k e) (settle_after_notes s k e) ?_ ?_
    · exact congrArg (fun x => ({ s.count with readyPosted := x } : Count)) (settle_readyPorts s k e)
    · rw [settle_outputs, settle_outputs, settle_after_lines, settle_after_notes]

/-- The last sample of a line is the same to the end of the count. -/
theorem settle_modLine_last (v : Option Level) : s.settle.modLine k (fun l => { l with last := v }) =
    (s.modLine k fun l => { l with last := v }).settle := by
  have hlines : (s.settle.modLine k fun l => { l with last := v }).lines =
      (s.modLine k fun l => { l with last := v }).settle.lines := vector_ext_fin fun j => by
    refine Eq.trans ?_ (settle_line (s.modLine k fun l => { l with last := v }) j).symm
    refine (vector_set_get _ _ _ _).trans ?_
    rw [line_modLine]
    split
    · next hj =>
      subst hj
      exact (congrArg (fun l : Line => { l with last := v }) (settle_line s k)).trans (Line.atPhase_withLast _ _ _).symm
    · exact settle_line s j
  have hpins : mapVector Line.pin s.settle.lines = mapVector Line.pin (s.settle.modLine k fun l => { l with last := v }).lines :=
    vector_ext_fin fun j => by
      rw [mapVector_get, mapVector_get]
      refine Eq.trans ?_ (congrArg Line.pin (vector_set_get _ _ _ _).symm)
      split
      · next hj =>
        subst hj
        rfl
      · rfl
  refine ext_fields rfl rfl rfl rfl rfl rfl rfl rfl hlines rfl rfl rfl rfl rfl ?_
  rw [settle_outputs, ← hlines, ← hpins]
  rfl

/-- Taking a change leaves the same at the end of the count, be its state brought to that end before it or not. -/
theorem settle_takeChange (x : LineId × Edge) : (s.settle.takeChange x).settle = (s.takeChange x).settle := by
  unfold takeChange
  rw [settle_modLine_last, settle_capture]

theorem settle_takeChanges (l : List (LineId × Edge)) :
    ∀ s : State, (l.foldl takeChange s.settle).settle = (l.foldl takeChange s).settle := by
  induction l with
  | nil => exact fun s => settle_settled s
  | cons x xs ih =>
    intro s
    rw [List.foldl_cons, List.foldl_cons, ← ih, settle_takeChange, ih]

end

/-! ### The changes that still wait -/

/-- The state with other level changes waiting. -/
def waiting (s : State) (l : List (LineId × Edge)) : State := { s with count := { s.count with changes := l } }

section
variable (s : State) (l : List (LineId × Edge))

theorem settle_waiting : (s.waiting l).settle = s.settle.waiting l := rfl

theorem takeChange_waiting (x : LineId × Edge) : (s.waiting l).takeChange x = (s.takeChange x).waiting l := by
  unfold takeChange
  have hmod : (s.waiting l).modLine x.1 (fun y => { y with last := some x.2.level }) =
    (s.modLine x.1 fun y => { y with last := some x.2.level }).waiting l := rfl
  rw [hmod]
  generalize s.modLine x.1 (fun y => { y with last := some x.2.level }) = t
  by_cases h : t.readersOf x.1 = 0
  · rw [capture_none t _ _ h, capture_none (t.waiting l) _ _ h]
  · rw [capture_eq t _ _ h, capture_eq (t.waiting l) _ _ h]
    rfl

end
end State
end Sys2Proof.Machine
end

section
/-! PROOFS. LINE_LEVEL_CHANGE (R66, R74, R78 to R82, R84, R85): what the first change that waits leaves on a settled state, and
the changes of one count in ascending line number (R79). -/

namespace Sys2Proof.Machine
namespace State

/-! ### What the end of the count shows of a capture on a settled state -/

section
variable {s : State} (hs : s.settled) (k : LineId) (e : Edge)
include hs

theorem settled_modLine_last (v : Option Level) : (s.modLine k fun l => { l with last := v }).settled :=
  (settle_modLine_last s k v).symm.trans (congrArg (modLine k fun l => { l with last := v }) hs)

theorem settled_capture_lines : (s.capture k e).settle.lines = s.lines :=
  vector_ext_fin fun j => settle_line_of hs (capture_time s k e) (congrArg (fun v : Vector Line 16 => v[j]) (capture_lines s k e))

theorem settled_capture_journal : (s.capture k e).settle.journal = (s.capture k e).journal := by
  by_cases h : s.readersOf k = 0
  · rw [capture_none s k e h]
    exact congrArg journal hs
  · rw [capture_eq s k e h, settle_journal]
    have hjournal := settle_stored_journal s k e
    rw [hs] at hjournal
    exact hjournal.symm

theorem settled_capture_notes : (s.capture k e).settle.notes = (s.capture k e).notes := by
  by_cases h : s.readersOf k = 0
  · rw [capture_none s k e h]
    exact congrArg notes hs
  · rw [capture_eq s k e h]
    refine vector_ext_fin fun p => (settle_queue_eq (s.afterCapture k e) p).trans ?_
    have hqueue := settle_readyQueue s k e p
    rw [hs] at hqueue
    exact (congrArg (NoteQueue.refreshed s) (after_queue s k e p)).trans (hqueue.symm.trans (after_queue s k e p).symm)

end

/-! ### What a change taken on a settled state leaves (R66) -/

section
variable {s : State} (hs : s.settled) (k : LineId) (e : Edge)

theorem taken_time : (s.takeChange (k, e)).settle.time = s.time := (settle_time _).trans (capture_time _ k e)
theorem taken_sync : (s.takeChange (k, e)).settle.sync = s.sync := (settle_sync _).trans (capture_sync _ k e)
theorem taken_plan : (s.takeChange (k, e)).settle.plan = s.plan := (settle_plan _).trans (capture_plan _ k e)
theorem taken_schedule : (s.takeChange (k, e)).settle.schedule = s.schedule :=
  (settle_schedule _).trans (capture_schedule _ k e)

/-- The sample becomes the last sample; a capture without readers leaves nothing else. -/
theorem takeChange_none (h : s.readersOf k = 0) :
    s.takeChange (k, e) = s.modLine k fun l => { l with last := some e.level } :=
  capture_none (s.modLine k fun l => { l with last := some e.level }) k e h

theorem takeChange_eq (h : s.readersOf k ≠ 0) :
    s.takeChange (k, e) = (s.modLine k fun l => { l with last := some e.level }).afterCapture k e :=
  capture_eq (s.modLine k fun l => { l with last := some e.level }) k e h

theorem taken_posted (p : PortId) : (s.takeChange (k, e)).settle.count.readyPosted.getLsbD p.val = true ↔
    s.count.readyPosted.getLsbD p.val = true ∨ s.readersOf k ≠ 0 ∧ s.readyCase (s.stored k e) p = true := by
  rw [settle_count]
  by_cases h : s.readersOf k = 0
  · rw [takeChange_none k e h]
    exact (or_iff_left fun hn => hn.1 h).symm
  · rw [takeChange_eq k e h]
    have hports : ((s.modLine k fun l => { l with last := some e.level }).afterCapture k e).count.readyPosted = s.readyPorts k e :=
      rfl
    unfold readyPorts at hports
    rw [hports, getLsbD_portSet, Bool.or_eq_true]
    exact or_congr_right (and_iff_right h).symm

include hs

theorem taken_line (j : LineId) : (s.takeChange (k, e)).settle.line j =
    (s.modLine k fun l => { l with last := some e.level }).line j :=
  congrArg (fun v : Vector Line 16 => v[j]) (settled_capture_lines (settled_modLine_last hs k (some e.level)) k e)

theorem taken_journal : (s.takeChange (k, e)).settle.journal = (s.takeChange (k, e)).journal :=
  settled_capture_journal (settled_modLine_last hs k (some e.level)) k e

theorem taken_notes : (s.takeChange (k, e)).settle.notes = (s.takeChange (k, e)).notes :=
  settled_capture_notes (settled_modLine_last hs k (some e.level)) k e

theorem taken_none (h : s.readersOf k = 0) :
    (s.takeChange (k, e)).settle.journal = s.journal ∧ (s.takeChange (k, e)).settle.notes = s.notes := by
  rw [taken_journal hs, taken_notes hs, takeChange_none k e h]
  exact ⟨rfl, rfl⟩

theorem taken_stored (h : s.readersOf k ≠ 0) : (s.takeChange (k, e)).settle.journal = (s.stored k e).journal := by
  rw [taken_journal hs, takeChange_eq k e h]
  rfl

theorem taken_queue (h : s.readersOf k ≠ 0) (p : PortId) : (s.takeChange (k, e)).settle.queue p = s.readyQueue k e p := by
  unfold queue
  rw [taken_notes hs, takeChange_eq k e h]
  exact Vector.getElem_ofFn p.isLt

end

/-! ### JOURNAL_READY by the length of the list (R84, R85) -/

section
variable (s : State) (k : LineId) (e : Edge) (p : PortId)

theorem readyQueue_eq {c : Prop} [Decidable c] {b : NoteBody} (hc : s.readyCase (s.stored k e) p = true ↔ c)
    (hb : c → s.readyBody k e p = b) : s.readyQueue k e p =
      if c ∧ s.count.readyPosted.getLsbD p.val = false then (s.post p b).queue p else s.queue p := by
  unfold readyQueue
  split
  · next h =>
    rw [Bool.and_eq_true, Bool.not_eq_true'] at h
    rw [if_pos ⟨hc.mp h.1, h.2⟩, hb (hc.mp h.1), post_queue_eq]
  · next h =>
    rw [if_neg fun hn => h (by rw [hc.mpr hn.1, hn.2]; rfl)]

theorem readyQueue_room (h : s.journal.records.length < 256) : s.readyQueue k e p =
    if (s.readersOf k).getLsbD p.val = true ∧ s.unread p = [] ∧ s.count.readyPosted.getLsbD p.val = false then
      (s.post p (.journalReady 1 (s.missed p))).queue p
    else s.queue p := by
  have hc : s.readyCase (s.stored k e) p = true ↔ (s.readersOf k).getLsbD p.val = true ∧ s.unread p = [] :=
    (readyCase_stored s k e p).trans (or_iff_left fun hf => Nat.not_le.mpr h hf.1)
  refine (readyQueue_eq s k e p hc fun hn => ?_).trans (if_congr and_assoc rfl rfl)
  unfold readyBody unreadCount
  rw [stored_unread_room s k e p h, stored_missed, if_pos h, if_pos hn.1, hn.2]
  rfl

theorem readyQueue_full {o : Record} {os : List Record} (h : s.journal.records.length = 256)
    (hr : s.journal.records = o :: os) : s.readyQueue k e p =
      if ((s.readersOf k).getLsbD p.val = true ∧ s.unread p = [] ∨ o.readers.getLsbD p.val = true ∧ s.missed p = 0) ∧
          s.count.readyPosted.getLsbD p.val = false then
        (s.post p (.journalReady ((os ++ [s.recordOf k e]).filter fun r => r.readers.getLsbD p.val).length
          ((s.stored k e).missed p))).queue p
      else s.queue p := by
  have hevicted : (256 ≤ s.journal.records.length ∧ s.missed p = 0 ∧
      ∃ o os, s.journal.records = o :: os ∧ o.readers.getLsbD p.val = true) ↔
        o.readers.getLsbD p.val = true ∧ s.missed p = 0 := by
    rw [hr]
    constructor
    · rintro ⟨_, hm, _, _, heq, ho⟩
      obtain ⟨rfl, rfl⟩ := List.cons.inj heq
      exact ⟨ho, hm⟩
    · rintro ⟨ho, hm⟩
      exact ⟨(hr ▸ h).ge, hm, o, os, rfl, ho⟩
  refine readyQueue_eq s k e p ((readyCase_stored s k e p).trans (or_congr_right hevicted)) fun _ => ?_
  unfold readyBody unreadCount
  rw [stored_unread_full s k e p (Nat.not_lt.mpr h.ge) hr]

theorem stored_missed_full {o : Record} {os : List Record} (h : s.journal.records.length = 256)
    (hr : s.journal.records = o :: os) : (s.stored k e).missed p = if o.readers.getLsbD p.val = true then
      (if s.missed p < 65535 then s.missed p + 1 else s.missed p) else s.missed p := by
  rw [stored_missed, if_neg (Nat.not_lt.mpr h.ge), hr]
  rfl

theorem stored_missed_room (h : s.journal.records.length < 256) : (s.stored k e).journal.missed = s.journal.missed :=
  vector_ext_fin fun p => (stored_missed s k e p).trans (if_pos h)

end

/-! ### The changes up to a line (R79) -/

section
variable {s : State} {k : LineId} {e : Edge} {rest : List (LineId × Edge)}

/-- A change that waits is taken with those of lower lines. -/
theorem exec_levelChange (h : (k, e) ∈ s.count.changes) :
    exec (.lineLevelChange k e.level) s = .next (s.takeChangesTo k).settle := by
  have hedge : edgeTo e.level = e := by cases e <;> rfl
  have hwaits : s.count.changes.contains (k, edgeTo e.level) = true := by
    rw [hedge]
    exact List.contains_iff_mem.mpr h
  show answer (if s.count.changes.contains (k, edgeTo e.level) then s.takeChangesTo k else _) = _
  rw [if_pos hwaits]
  rfl

theorem waiting_waiting (s : State) (l m : List (LineId × Edge)) : (s.waiting l).waiting m = s.waiting m := rfl

theorem takeChanges_waiting (l : List (LineId × Edge)) (xs : List (LineId × Edge)) :
    ∀ s : State, xs.foldl takeChange (s.waiting l) = (xs.foldl takeChange s).waiting l := by
  induction xs with
  | nil => exact fun _ => rfl
  | cons x xs ih => exact fun s => (congrArg (List.foldl takeChange · xs) (takeChange_waiting s l x)).trans (ih _)

/-- The changes of lines up to a line. -/
def upTo (k : LineId) (x : LineId × Edge) : Bool := decide (x.1 ≤ k)

theorem takeChangesTo_eq (s : State) (k : LineId) : s.takeChangesTo k =
    ((s.count.changes.takeWhile (upTo k)).foldl takeChange s).waiting (s.count.changes.dropWhile (upTo k)) :=
  takeChanges_waiting _ _ s

/-- The first of the changes that wait is taken alone. -/
theorem takeChangesTo_first (h : s.count.changes = (k, e) :: rest) (hrest : ∀ x ∈ rest, k < x.1) :
    s.takeChangesTo k = (s.takeChange (k, e)).waiting rest := by
  have hk : upTo k (k, e) = true := decide_eq_true le_rfl
  have hlater : ∀ x ∈ rest, ¬upTo k x = true := fun x hx hc => absurd (of_decide_eq_true hc) (not_le.mpr (hrest x hx))
  rw [takeChangesTo_eq, h, List.takeWhile_cons_of_pos hk, List.dropWhile_cons_of_pos hk]
  cases rest with
  | nil => rfl
  | cons y ys =>
    have hy := hlater y List.mem_cons_self
    rw [List.takeWhile_cons_of_neg hy, List.dropWhile_cons_of_neg hy]
    rfl

/-- The changes up to a line are the first one and then the others (R79). -/
theorem takeChangesTo_cons {j : LineId} {d : Edge} (h : s.count.changes = (j, d) :: rest) (hj : j ≤ k) :
    (s.takeChangesTo k).settle = (((s.takeChange (j, d)).settle.waiting rest).takeChangesTo k).settle := by
  have hj' : upTo k (j, d) = true := decide_eq_true hj
  have hrest : ((s.takeChange (j, d)).settle.waiting rest).count.changes = rest := rfl
  rw [takeChangesTo_eq, takeChangesTo_eq, h, hrest, List.takeWhile_cons_of_pos hj', List.dropWhile_cons_of_pos hj',
    List.foldl_cons, takeChanges_waiting, waiting_waiting, settle_waiting, settle_waiting, settle_takeChanges]

end
end State

/-! ### The changes of a count -/

/-- Settles O40: what the first change that waits leaves, and the changes of one count in ascending line number. -/
theorem levelChangeIsCapturedForItsSubscribers : Obligations.LevelChangeIsCapturedForItsSubscribers := by
  refine ⟨fun s k e rest hs hchanges hrest => ⟨fun p => getLsbD_portSet _ p, ?_⟩,
    fun s u j k d e rest hchanges hrest hk hu => ?_⟩
  · have hexec : exec (.lineLevelChange k e.level) s = .next ((s.takeChange (k, e)).settle.waiting rest) := by
      rw [State.exec_levelChange (hchanges ▸ List.mem_cons_self), State.takeChangesTo_first hchanges hrest, State.settle_waiting]
    have hstored := State.taken_stored hs k e
    have hqueue := State.taken_queue hs k e
    have htime := State.taken_time (s := s) k e
    have hsync := State.taken_sync (s := s) k e
    have hschedule := State.taken_schedule (s := s) k e
    have hplan := State.taken_plan (s := s) k e
    have hposted := State.taken_posted (s := s) k e
    have hline := State.taken_line hs k e
    have hnone := State.taken_none hs k e
    generalize (s.takeChange (k, e)).settle = v at *
    refine ⟨v.waiting rest, s.recordOf k e, hexec, ?_, fun j hj => ?_, rfl, htime, hsync, hschedule, hplan, rfl, fun h => ?_, fun h hroom => ?_, fun h hfull o os hr => ?_,
      fun h => ?_, fun p => ?_⟩
    · exact (hline k).trans (State.line_modLine_same _ _ _)
    · exact (hline j).trans (State.line_modLine_ne _ _ (Ne.symm hj))
    · exact hnone h
    · refine ⟨(congrArg Journal.records (hstored h)).trans ?_, (congrArg Journal.missed (hstored h)).trans
        (State.stored_missed_room s k e hroom), fun p => (hqueue h p).trans (State.readyQueue_room s k e p hroom)⟩
      rw [State.stored_records, if_pos hroom]
    · have hmissed : ∀ p, v.missed p = (s.stored k e).missed p := fun p =>
        congrArg (fun j : Journal => j.missed[p]) (hstored h)
      refine ⟨(congrArg Journal.records (hstored h)).trans ?_, fun p => (hmissed p).trans
        (State.stored_missed_full s k e p hfull hr), fun p => (hqueue h p).trans ?_⟩
      · rw [State.stored_records, if_neg (Nat.not_lt.mpr hfull.ge), hr, List.tail_cons]
      · rw [State.readyQueue_full s k e p hfull hr, ← hmissed]
        rfl
    · show v.journal.counter = advanceCounter (v.journal.records.map (·.sequence)) s.journal.counter
      rw [hstored h]
      rfl
    · exact (hposted p).trans (or_congr_right (and_congr_right fun _ => State.readyCase_stored s k e p))
  · have hjk := hrest _ hk
    have hfirst : u = (s.takeChange (j, d)).settle.waiting rest := by
      rw [State.exec_levelChange (hchanges ▸ List.mem_cons_self), State.takeChangesTo_first hchanges hrest] at hu
      exact (Host.Outcome.next.inj hu).symm
    have hwaits : (k, e) ∈ s.count.changes := hchanges ▸ List.mem_cons_of_mem _ hk
    subst hfirst
    rw [State.exec_levelChange hwaits, State.exec_levelChange hk, State.takeChangesTo_cons hchanges hjk.le]
    exact ⟨rfl, rfl⟩

end Sys2Proof.Machine
end

section
/-! PROOFS. SUBSCRIBE and JOURNAL_READ (R83, R86, R88, R89). -/

namespace Sys2Proof.Machine

/-! ### SUBSCRIBE (R86) -/

/-- No report and no pin shows a subscription set. -/
theorem State.settle_setSubs (s : State) (p : PortId) (x : LineSet) : (s.setSubs p x).settle = s.settle.setSubs p x := rfl

theorem State.settled_setSubs {s : State} (h : s.settled) (p : PortId) (x : LineSet) : (s.setSubs p x).settled :=
  (State.settle_setSubs s p x).trans (congrArg (State.setSubs p x) h)

/-- Settles O41: the set is replaced at the marked count, and the end of the count changes neither it nor the answer. -/
theorem subscribeReplacesTheSet : Obligations.SubscribeReplacesTheSet := by
  intro s p id x h
  have heffect : exec (.subscribe p id x) s =
      .next ((s.setSubs p x).answered p kindSubscribe id .ok (.subscribed x)).settle :=
    answer_take_effect h kindSubscribe id (State.subscribeTo p id x) rfl
  rw [heffect, settle_answered_fixed (State.settled_setSubs h.2.2 p x) p kindSubscribe id .ok rfl]
  rfl

/-! ### JOURNAL_READ (R88, R89) -/

namespace State
variable (s : State) (p : PortId)

/-- The GAP item of a JOURNAL_READ: none where no record was missed (R88). -/
def gapItems : List JournalItem := if s.missed p = 0 then [] else [.gap (s.missed p)]

/-- The records a JOURNAL_READ of up to `n` items sends: the oldest unread ones, as many as the GAP item leaves room for (R88). -/
def sentRecords (n : Nat) : List Record := (s.unread p).take (n - (s.gapItems p).length)

/-- The state with records read by the port: it leaves their reader sets, records left without readers retire, and its missed
count is 0 (R83, R89). -/
def retired (sent : List Record) : State :=
  (s.setMissed p 0).setRecords (dropReader p (sent.map (·.sequence)) s.journal.records)

/-- The answer of an accepted JOURNAL_READ, made at the marked count. -/
theorem readItems_marked (id : Byte) (n : Nat) : (s.marked p).readItems p id n =
    ((s.retired p (s.sentRecords p n)).marked p).respond p kindJournalRead id .ok
      (.journal (s.gapItems p ++ (s.sentRecords p n).map .capture) (s.unreadCount p - (s.sentRecords p n).length)) := rfl

theorem journalRead_badValue (id : Byte) {maximum : Byte} (hm : maximum.toNat = 0 ∨ 6 < maximum.toNat) :
    s.journalRead p id maximum = s.respond p kindJournalRead id .badValue (.journal [] 0) := if_pos hm

theorem journalRead_accepted (id : Byte) {maximum : Byte} (h1 : 1 ≤ maximum.toNat) (h6 : maximum.toNat ≤ 6) :
    s.journalRead p id maximum = s.readItems p id maximum.toNat := if_neg (by omega)

end State

section
variable {s : State} {p : PortId} (h : s.serving p) (id : Byte) {maximum : Byte}
include h

theorem exec_journalRead_badValue (hm : maximum.toNat = 0 ∨ 6 < maximum.toNat) :
    exec (.journalRead p id maximum) s = .next (s.answered p kindJournalRead id .badValue (.journal [] 0)) :=
  answer_take_respond h kindJournalRead id (State.journalRead p id maximum) (State.journalRead_badValue _ p id hm) rfl

theorem exec_journalRead_accepted (h1 : 1 ≤ maximum.toNat) (h6 : maximum.toNat ≤ 6) :
    exec (.journalRead p id maximum) s = .next (State.settle (State.answered p kindJournalRead id .ok
      (.journal (s.gapItems p ++ (s.sentRecords p maximum.toNat).map .capture)
        (s.unreadCount p - (s.sentRecords p maximum.toNat).length))
      (s.retired p (s.sentRecords p maximum.toNat)))) :=
  answer_take_effect h kindJournalRead id (State.journalRead p id maximum)
    ((State.journalRead_accepted _ p id h1 h6).trans (s.readItems_marked p id maximum.toNat))

end

/-- Settles O42, by the range of the maximum. -/
theorem journalReadSendsGapAndOldestRecords : Obligations.JournalReadSendsGapAndOldestRecords := by
  intro s p id maximum sent gap h
  refine ⟨exec_journalRead_badValue h id, fun h1 h6 hgap hsent => ?_⟩
  obtain rfl : gap = s.gapItems p := hgap
  obtain rfl : sent = s.sentRecords p maximum.toNat := hsent
  exact exec_journalRead_accepted h id h1 h6

end Sys2Proof.Machine
end

section
/-! PROOFS. The sync unit at a frame boundary event (R98, R104, R105, R108, R109, R111, R112): what the close of the measurement
frame and a new plan leave, and the SYNC_CHANGE of an event that changes the sync state. -/

namespace Sys2Proof.Machine

/-! ### The frame that ended (R98, R104, R105) -/

namespace SyncUnit
variable (limit : BitVec 16) {u : SyncUnit}

theorem closeAt_other (h : u.state ≠ .holdover) : u.closeAt limit = u.closeFrame := if_neg h

theorem closeFrame_measured (h : u.measured = true) : u.closeFrame = u := if_pos h

theorem closeAt_free (h : u.state = .free) : u.closeAt limit = u := by
  rw [closeAt_other limit (h ▸ nofun)]
  unfold closeFrame
  rw [h]
  split <;> rfl

theorem closeAt_measured (h : u.state ≠ .holdover) (hm : u.measured = true) : u.closeAt limit = u :=
  (closeAt_other limit h).trans (closeFrame_measured hm)

/-- A missed frame before the third in a row. -/
theorem closeAt_missed (hh : u.state ≠ .holdover) (hf : u.state ≠ .free) (hm : u.measured = false) (hr : u.missedRun < 2) :
    u.closeAt limit = { u with missedRun := u.missedRun + 1 } := by
  have hfew : ¬3 ≤ u.missedRun + 1 := by omega
  rw [closeAt_other limit hh]
  unfold closeFrame
  cases hs : u.state with
  | free => exact absurd hs hf
  | holdover => exact absurd hs hh
  | acquire | locked | realign => simp [hm, hfew]

/-- The third missed frame in a row in ACQUIRE. -/
theorem closeAt_acquire (hs : u.state = .acquire) (hm : u.measured = false) (hr : 2 ≤ u.missedRun) :
    u.closeAt limit = { u with alignedRun := 0, missedRun := 0 } := by
  have hthird : 3 ≤ u.missedRun + 1 := by omega
  rw [closeAt_other limit (hs ▸ nofun)]
  simp [closeFrame, hm, hs, hthird]

/-- The third missed frame in a row in LOCKED or REALIGN: the HOLDOVER it enters is not counted in the same event. -/
theorem closeAt_lost (hs : u.state = .locked ∨ u.state = .realign) (hm : u.measured = false) (hr : 2 ≤ u.missedRun) :
    u.closeAt limit = { u with state := .holdover, c := 0, alignedRun := 0, missedRun := 0, holdoverCount := 0 } := by
  have hthird : 3 ≤ u.missedRun + 1 := by omega
  rw [closeAt_other limit (by rcases hs with hs | hs <;> exact hs ▸ nofun)]
  rcases hs with hs | hs <;> simp [closeFrame, hm, hs, hthird]

/-- A holdover frame is counted, and the limit checked against the new count. -/
theorem closeAt_holdover (hs : u.state = .holdover) : u.closeAt limit =
    if limit ≠ 0 ∧ limit.toNat ≤ satInc 65535 u.holdoverCount then
      { u with state := .acquire, alignedRun := 0, missedRun := 0, holdoverCount := 0 }
    else { u with holdoverCount := satInc 65535 u.holdoverCount } := by
  have hclose : u.closeFrame = u := by
    unfold closeFrame
    rw [hs]
    split <;> rfl
  unfold closeAt countHoldover holdoverExpired
  rw [if_pos hs, hclose]
  simp only [Bool.and_eq_true, decide_eq_true_eq]

/-! ### A new plan (R109) -/

theorem takeUp_enabled : u.takeUp true = if u.state = .free then { u with state := .acquire } else u := rfl

theorem takeUp_disabled : u.takeUp false = if u.state = .free then u
    else { u with state := .free, c := 0, alignedRun := 0, missedRun := 0, holdoverCount := 0 } := rfl

end SyncUnit

namespace State

/-! ### The sync unit after the event -/

theorem planApplies_of_agreed {s : State} {x : Proposal} (hx : s.plan.proposal = some x) (ha : x.state = .agreed) :
    s.planApplies = true := by
  unfold planApplies
  rw [hx]
  exact decide_eq_true ha

/-- An agreed proposal becomes the plan record (R126). -/
theorem boundaryPlan_record_of_agreed {s : State} {x : Proposal} (hx : s.plan.proposal = some x) (ha : x.state = .agreed) :
    s.boundaryPlan.plan.record = x.plan := by
  rw [boundaryPlan_plan, hx]
  simp only [ha]

section
variable {s : State} (h : s.boundaryWaits = true)
include h

theorem takeFrameEvent_sync : s.takeFrameEvent.sync =
    { (if s.planApplies then SyncUnit.takeUp s.boundaryPlan.plan.record.refEnable (s.sync.closeAt s.plan.record.holdoverLimit)
      else s.sync.closeAt s.plan.record.holdoverLimit) with measured := false } := by
  have hplan : (s.modCount fun c => { c with raised := false }).boundaryPlan.plan = s.boundaryPlan.plan := by
    rw [boundaryPlan_plan, boundaryPlan_plan, modCount_plan]
  rw [takeFrameEvent_boundary s (·.sync) (fun _ _ _ => rfl) (fun _ => rfl) h, frameBoundary_sync, boundaryPlanAndSync_sync,
    hplan]
  rfl

theorem takeFrameEvent_sync_unplanned (ha : s.planApplies = false) :
    s.takeFrameEvent.sync = { s.sync.closeAt s.plan.record.holdoverLimit with measured := false } := by
  rw [takeFrameEvent_sync h, ha]
  rfl

theorem takeFrameEvent_sync_planned {x : Proposal} (hx : s.plan.proposal = some x) (ha : x.state = .agreed) :
    s.takeFrameEvent.sync =
      { (s.sync.closeAt s.plan.record.holdoverLimit).takeUp x.plan.refEnable with measured := false } := by
  rw [takeFrameEvent_sync h, planApplies_of_agreed hx ha, boundaryPlan_record_of_agreed hx ha]
  rfl

end

/-! ### The SYNC_CHANGE of the event (R111, R112) -/

/-- The port hears of the sync unit, and the count has posted SYNC_CHANGE if the sync state is no longer `st`. -/
def announcesSince (st : SyncState) (p : PortId) (s : State) : Prop :=
  s.hearsSync p ∧ (s.sync.state ≠ st → s.count.syncPosted = true)

section
variable {s : State} {st : SyncState} {p : PortId}

theorem announcesSince_of_heard (h : s.heardSync p) : s.announcesSince st p := ⟨h.1, fun _ => h.2⟩

theorem heardSync_of_announces (h : s.announcesSince st p) (hne : s.sync.state ≠ st) : s.heardSync p := ⟨h.1, h.2 hne⟩

theorem announcesSince_modTime (f : TimeBase → TimeBase) (h : s.announcesSince st p) :
    (s.modTime f).announcesSince st p := h

theorem announcesSince_noteSync (h : s.announcesSince st p) : s.noteSync.announcesSince st p :=
  announcesSince_of_heard (heardSync_noteSync h.1)

theorem announcesSince_post (q : PortId) (b : NoteBody) (h : s.announcesSince st p) :
    (s.post q b).announcesSince st p := by
  refine ⟨hearsSync_post q b h.1, ?_⟩
  rw [post_sync, post_count]
  exact h.2

theorem announcesSince_answerDeferred (q : PortId) (o : DeferredOwner) (r : Result) (b : Body)
    (h : s.announcesSince st p) : (s.answerDeferred q o r b).announcesSince st p := by
  refine ⟨hearsSync_answerDeferred q o r b h.1, ?_⟩
  rw [answerDeferred_same s (·.sync) (fun _ _ _ => rfl), answerDeferred_same s (·.count) (fun _ _ _ => rfl)]
  exact h.2

/-- A change of the sync unit posts where it changes the state. -/
theorem announcesSince_changeSync (f : SyncUnit → SyncUnit) (h : s.announcesSince st p) :
    (s.changeSync f).announcesSince st p := by
  unfold changeSync
  split
  · next hf => exact ⟨h.1, fun hne => h.2 (hf ▸ hne)⟩
  · exact announcesSince_of_heard (heardSync_noteSync (s := s.modSync f) h.1)

theorem announcesSince_boundarySyncOpen (applied : Bool) (h : s.announcesSince st p) :
    (s.boundarySyncOpen applied).announcesSince st p := by
  unfold boundarySyncOpen
  split
  · exact announcesSince_changeSync _ h
  · exact h

/-- A frame boundary event posts SYNC_CHANGE where one of its steps changes the sync state. -/
theorem announcesSince_frameBoundary (h : s.announcesSince st p) : s.frameBoundary.announcesSince st p := by
  have posts : ∀ (t : State) q b, t.announcesSince st p → (t.post q b).announcesSince st p := fun _ q b =>
    announcesSince_post q b
  have answers : ∀ (t : State) q o r b, t.announcesSince st p → (t.answerDeferred q o r b).announcesSince st p :=
    fun _ q o r b => announcesSince_answerDeferred q o r b
  have hclosed : s.boundarySyncClose.announcesSince st p := announcesSince_changeSync _ h
  have hplanned : s.boundarySyncClose.boundaryPlan.announcesSince st p :=
    boundaryPlan_keeps (P := fun t => t.announcesSince st p) posts answers (fun _ _ ht => ht) _ hclosed
  have hopened : s.boundaryPlanAndSync.announcesSince st p := announcesSince_boundarySyncOpen _ hplanned
  unfold frameBoundary boundaryTime boundaryTable
  exact announcesSince_modTime _
    (boundaryLines_keeps (P := fun t => t.announcesSince st p) posts answers (fun _ _ _ ht => ht) _ _ _ hopened)

/-- A frame boundary event that leaves another sync state leaves its SYNC_CHANGE in the queues of those who hear it. -/
theorem takeFrameEvent_boundary_heard (hw : s.boundaryWaits = true) (h : s.hearsSync p)
    (hne : s.takeFrameEvent.sync.state ≠ s.sync.state) : s.takeFrameEvent.heardSync p := by
  refine heardSync_of_announces (st := s.sync.state) ?_ hne
  have hboundary : (s.modCount fun c => { c with raised := false }).frameBoundary.announcesSince s.sync.state p :=
    announcesSince_frameBoundary ⟨h, fun e => absurd rfl e⟩
  obtain ⟨hr, hm⟩ := boundaryWaits_iff.mp hw
  unfold takeFrameEvent frameEvent
  rw [if_pos hr]
  cases hmove : s.count.move with
  | backward => exact absurd hmove hm
  | forward held => exact announcesSince_noteSync hboundary
  | ordinary | insertion | deletion => exact hboundary

end

/-- Either command that takes the event leaves the sync unit and the SYNC_CHANGE of the event. -/
theorem exec_boundary_sync {s : State} {c : Instr} (h : s.boundaryTakenBy c) : ∃ v : State,
    exec c s = .next v.settle ∧ v.sync = s.takeFrameEvent.sync ∧
      ∀ p, s.takeFrameEvent.heardSync p → v.heardSync p := by
  obtain ⟨_, ⟨_, he⟩ | ⟨_, he⟩⟩ := exec_boundaryTakenBy h
  · exact ⟨_, he, rfl, fun _ hp => hp⟩
  · exact ⟨_, he, resolveAll_sync _, fun _ => heardSync_resolveAll⟩

end State

/-- Settles O17: the frame that ended is closed case by case, and the plan unit says whether a plan is taken up. -/
theorem frameBoundaryClosesTheMeasurementFrame : Obligations.FrameBoundaryClosesTheMeasurementFrame := by
  intro s c u h hu
  have hclose : s.sync.closeAt s.plan.record.holdoverLimit = u := by
    rcases hu with ⟨hs, rfl⟩ | ⟨hs, hm, rfl⟩ | ⟨hh, hf, hm, hr, rfl⟩ | ⟨hs, hm, hr, rfl⟩ | ⟨hs, hm, hr, rfl⟩ |
      ⟨hs, n, rfl, rfl⟩
    · exact SyncUnit.closeAt_free _ hs
    · exact SyncUnit.closeAt_measured _ hs hm
    · exact SyncUnit.closeAt_missed _ hh hf hm hr
    · exact SyncUnit.closeAt_acquire _ hs hm hr
    · exact SyncUnit.closeAt_lost _ hs hm hr
    · exact SyncUnit.closeAt_holdover _ hs
  obtain ⟨hw, _⟩ := State.exec_boundaryTakenBy h
  obtain ⟨v, he, hsync, hheard⟩ := State.exec_boundary_sync h
  refine ⟨v.settle, he, fun ha => ?_, fun x hx ha => ?_, fun hne hc p => State.noted_of_heardSync fun hp => ?_⟩
  · rw [State.settle_sync, hsync, State.takeFrameEvent_sync_unplanned hw ha, hclose]
  · rw [State.settle_sync, hsync, State.takeFrameEvent_sync_planned hw hx ha, hclose]
    refine ⟨fun hen hf => ?_, fun hen hf => ?_, fun hen hf => ?_, fun hen hf => ?_⟩
    · rw [hen, SyncUnit.takeUp_enabled, if_pos hf]
    · rw [hen, SyncUnit.takeUp_enabled, if_neg hf]
    · rw [hen, SyncUnit.takeUp_disabled, if_pos hf]
    · rw [hen, SyncUnit.takeUp_disabled, if_neg hf]
  · rw [State.settle_sync, hsync] at hne
    exact hheard p (State.takeFrameEvent_boundary_heard hw (State.hearsSync_first hp hc) hne)

/-! ### The holdover limit (R105) -/

/-- The saturating count reaches every limit that the count without saturation, cut off at its top, reaches. -/
theorem le_satInc_of_le_min {m top n : Nat} (h : m ≤ min (n + 1) top) : m ≤ satInc top n := by
  unfold satInc
  split <;> omega

theorem State.holdoverExpires_of {s : State} (hs : s.sync.state = .holdover) (hlimit : s.plan.record.holdoverLimit ≠ 0)
    (hcount : s.plan.record.holdoverLimit.toNat ≤ satInc 65535 s.sync.holdoverCount) : s.holdoverExpires = true := by
  unfold State.holdoverExpires holdoverExpired
  rw [decide_eq_true hs, decide_eq_true hlimit, decide_eq_true hcount]
  rfl

/-- Settles O20: the event at which the limit expires is taken in this count, and the count reached the limit. -/
theorem holdoverLimitExpiryEntersAcquire : Obligations.HoldoverLimitExpiryEntersAcquire := by
  intro s hw hs hlimit hreached hplan
  have hcount := le_satInc_of_le_min hreached
  have hwaits : (s.boundaryWaits && s.holdoverExpires) = true :=
    Bool.and_eq_true_iff.mpr ⟨hw, State.holdoverExpires_of hs hlimit hcount⟩
  have hexec : exec .holdoverLimitExpiry s = .next s.takeFrameEvent.settle :=
    congrArg answer (takeOrNext_now (waits := fun t => t.boundaryWaits && t.holdoverExpires) hwaits)
  have hsync : s.takeFrameEvent.settle.sync = { s.sync with
      state := .acquire, alignedRun := 0, missedRun := 0, holdoverCount := 0, measured := false } := by
    rw [State.settle_sync, State.takeFrameEvent_sync_unplanned hw hplan, SyncUnit.closeAt_holdover _ hs,
      if_pos ⟨hlimit, hcount⟩]
  refine ⟨_, hexec, ?_, ?_, ?_, ?_, ?_, ?_, ?_, State.takeFrameEvent_raised hw⟩ <;> rw [hsync]

end Sys2Proof.Machine
end

section
/-! PROOFS. A REFIN edge (R94 to R97, R99, R100, R107, R111): what a measurement leaves at the sync unit, what an edge leaves at
the other blocks, and the SYNC_CHANGE of a measurement that orders no step. -/

namespace Sys2Proof.Machine

/-! ### A measurement at the sync unit (R99, R107) -/

theorem aligned_iff (e : Int) : aligned e = true ↔ e.natAbs ≤ 2 := decide_eq_true_iff

theorem steps_iff (r : Plan) (e : Int) : r.steps e = true ↔ r.stepPolicy = .allowStep ∧ r.slipWindow.toNat < e.natAbs := by
  unfold Plan.steps
  rw [Bool.and_eq_true, decide_eq_true_eq, decide_eq_true_eq]

theorem steps_eq_false {r : Plan} {e : Int} (h : r.stepPolicy = .noStep ∨ e.natAbs ≤ r.slipWindow.toNat) :
    r.steps e = false := by
  rw [← Bool.not_eq_true, steps_iff]
  rintro ⟨hpolicy, hwindow⟩
  rcases h with h | h
  · rw [h] at hpolicy; cases hpolicy
  · omega

namespace SyncUnit
variable {e : Int} {u : SyncUnit}

/-- The state change reads the state and the run counts, and sets no more than these and the holdover count. -/
theorem measureState_marked (e : Int) (u : SyncUnit) :
    { u with lastE := e, missedRun := 0, measured := true }.measureState e =
      { u.measureState e with lastE := e, missedRun := 0, measured := true } := by
  obtain ⟨st, _, _, _, _, _, _, _, _, _⟩ := u
  cases st
  all_goals
    dsimp only [measureState]
    repeat' split
    all_goals rfl

theorem measureState_strayCount (e : Int) (u : SyncUnit) : (u.measureState e).strayCount = u.strayCount := by
  unfold measureState
  repeat' split
  all_goals rfl

/-- What a measurement leaves, in terms of the state change and of the correction. -/
theorem measure_eq (r : Plan) (e : Int) (u : SyncUnit) : u.measure r e = { u.measureState e with
    lastE := e
    missedRun := 0
    measured := true
    c := if r.steps e then 0 else e
    stepOrder := if r.steps e then some ⟨e, (u.measureState e).state⟩ else (u.measureState e).stepOrder } := by
  unfold measure correct
  rw [measureState_marked]
  split <;> rfl

/-! The state change by the state it finds. -/

section
variable (hs : u.state = .acquire ∨ u.state = .realign)
include hs

theorem measureState_acquiring : u.measureState e =
    if aligned e then
      (if 4 ≤ u.alignedRun + 1 then { u with state := .locked, alignedRun := 0 } else { u with alignedRun := u.alignedRun + 1 })
    else { u with alignedRun := 0 } := by
  unfold measureState
  rcases hs with hs | hs <;> rw [hs]

/-- An aligned measurement before the fourth in a row. -/
theorem measureState_aligned (ha : e.natAbs ≤ 2) (hr : u.alignedRun < 3) :
    u.measureState e = { u with alignedRun := u.alignedRun + 1 } := by
  rw [measureState_acquiring hs, if_pos ((aligned_iff e).mpr ha), if_neg (by omega)]

/-- The fourth aligned measurement in a row. -/
theorem measureState_locks (ha : e.natAbs ≤ 2) (hr : u.alignedRun = 3) :
    u.measureState e = { u with state := .locked, alignedRun := 0 } := by
  rw [measureState_acquiring hs, if_pos ((aligned_iff e).mpr ha), if_pos (by omega)]

theorem measureState_unaligned (ha : 2 < e.natAbs) : u.measureState e = { u with alignedRun := 0 } := by
  rw [measureState_acquiring hs, if_neg (mt (aligned_iff e).mp (by omega))]

end

theorem measureState_locked (hs : u.state = .locked) : u.measureState e =
    if aligned e then u else { u with state := .realign, alignedRun := 0 } := by
  unfold measureState
  rw [hs]

theorem measureState_stays_locked (hs : u.state = .locked) (ha : e.natAbs ≤ 2) : u.measureState e = u := by
  rw [measureState_locked hs, if_pos ((aligned_iff e).mpr ha)]

theorem measureState_leaves_locked (hs : u.state = .locked) (ha : 2 < e.natAbs) :
    u.measureState e = { u with state := .realign, alignedRun := 0 } := by
  rw [measureState_locked hs, if_neg (mt (aligned_iff e).mp (by omega))]

theorem measureState_holdover (hs : u.state = .holdover) : u.measureState e =
    { u with state := .realign, alignedRun := if e.natAbs ≤ 2 then 1 else 0, holdoverCount := 0 } := by
  unfold measureState
  rw [hs]
  simp only [aligned_iff]

end SyncUnit

namespace State

/-! ### The edge handled -/

section
variable {s : State}

theorem handleEdge_free (h : s.sync.state = .free) : s.handleEdge = s := if_pos h

theorem handleEdge_stray (h : s.sync.state ≠ .free) (hm : s.sync.measured = true) :
    s.handleEdge = s.modSync fun u => { u with strayCount := satInc 65535 u.strayCount } := by
  unfold handleEdge
  rw [if_neg h, if_pos hm]

theorem handleEdge_first (h : s.sync.state ≠ .free) (hm : s.sync.measured = false) : s.handleEdge = s.measureEdge := by
  unfold handleEdge
  rw [if_neg h, hm]
  rfl

/-- The state with its sync unit measured, before a SYNC_CHANGE is posted. -/
def measuredAt (s : State) : State := s.modSync (SyncUnit.measure s.plan.record (errorAt s.time.phase s.time.len))

theorem measureEdge_sync : s.measureEdge.sync = s.sync.measure s.plan.record (errorAt s.time.phase s.time.len) := by
  unfold measureEdge
  split
  · rfl
  · exact noteSync_same _ (·.sync) (fun _ _ _ => rfl) fun _ => rfl

/-- A measurement that orders a step posts nothing (R111). -/
theorem measureEdge_steps (h : s.plan.record.steps (errorAt s.time.phase s.time.len) = true) :
    s.measureEdge = s.measuredAt := if_pos (Or.inl h)

/-- A measurement that changes the sync state and orders no step is an occasion of SYNC_CHANGE (R111). -/
theorem measureEdge_changes (h : s.plan.record.steps (errorAt s.time.phase s.time.len) = false)
    (hs : s.measureEdge.sync.state ≠ s.sync.state) : s.measureEdge = s.measuredAt.noteSync := by
  rw [measureEdge_sync] at hs
  refine if_neg ?_
  rw [h]
  exact fun hc => hc.elim nofun hs

end

/-! ### The queues of the count -/

/-- A queue that holds no SYNC_CHANGE of the count stays as it is to the end of the count (R112). -/
theorem settle_queue_of_none {u : State} {p : PortId}
    (h : ∀ n ∈ (u.queue p).entries, n.stamp = u.count.serial → n.body.kind ≠ .syncChange) : u.settle.queue p = u.queue p := by
  have hentries : (u.queue p).entries.map (Note.refresh u) = (u.queue p).entries :=
    (List.map_congr_left fun n hn => if_neg fun hc => h n hn hc.1 hc.2).trans (List.map_id _)
  rw [settle_queue_eq, hentries]

/-- The first occasion of a count posts to every port what the sync unit then shows. -/
theorem noteSync_queue {s : State} (h : s.count.syncPosted = false) (p : PortId) :
    s.noteSync.queue p = (s.post p s.syncBody).queue p := by
  unfold noteSync
  rw [if_neg (h ▸ nofun)]
  refine forPorts_reaches_one
    (P := fun t => t.queue p = s.queue p ∧ t.isOpen p = s.isOpen p ∧ t.count.serial = s.count.serial ∧ t.syncBody = s.syncBody)
    (Q := fun t => t.queue p = (s.post p s.syncBody).queue p) p
    (fun q t hq ⟨hqueue, hopen, hserial, hbody⟩ => ?_) (fun q t hq ht => (post_queue_ne t _ hq).trans ht)
    (fun t ⟨hqueue, hopen, hserial, hbody⟩ => ?_) _ ⟨rfl, rfl, rfl, rfl⟩
  · refine ⟨(post_queue_ne t _ hq).trans hqueue, (post_isOpen t p q _).trans hopen, ?_, ?_⟩
    · rw [post_count]; exact hserial
    · unfold syncBody
      rw [post_sync, post_time]; exact hbody
  · rw [hbody]
    exact post_queue_congr t s p _ hopen hqueue hserial

theorem noteSync_syncBody (s : State) : s.noteSync.syncBody = s.syncBody := by
  unfold syncBody
  rw [noteSync_same s (·.sync) (fun _ _ _ => rfl) (fun _ => rfl), noteSync_same s (·.time) (fun _ _ _ => rfl) fun _ => rfl]

end State

/-- After a post of SYNC_CHANGE that is let through, every SYNC_CHANGE of the queue has its body. -/
theorem accept_syncChange_body (stamp : Nat) {b : NoteBody} (hb : b.kind = .syncChange) (q : NoteQueue) :
    ∀ n ∈ (q.accept stamp b).entries, n.body.kind = .syncChange → n.body = b := by
  intro n hn hk
  unfold NoteQueue.accept at hn
  split at hn
  · obtain ⟨m, _, rfl⟩ := List.mem_map.mp hn
    split at hk
    · next hm => rw [if_pos hm]
    · next hm => exact absurd (hk.trans hb.symm) hm
  · next hnone =>
    have hbefore : ∀ m ∈ q.entries, m.body.kind ≠ .syncChange := fun m hm hc => hnone (by
      rw [Bool.and_eq_true, List.any_eq_true, hb]
      exact ⟨rfl, m, hm, decide_eq_true hc⟩)
    split at hn
    · rcases List.mem_append.mp hn with hn | hn
      · exact absurd hk (hbefore n hn)
      · rw [List.mem_singleton.mp hn]
    · exact absurd hk (hbefore n hn)

namespace State

/-- The SYNC_CHANGE just posted shows the end of the count already. -/
theorem settle_noteSync_queue {s : State} {p : PortId} (h : s.count.syncPosted = false) (hp : s.wantsSync p) :
    s.noteSync.settle.queue p = (s.post p s.syncBody).queue p := by
  obtain ⟨hopen, henable⟩ := hp
  have hqueue : s.noteSync.queue p = (s.queue p).accept s.count.serial s.syncBody := by
    rw [noteSync_queue h, post_accepted s.syncBody hopen henable, queue_modQueue_same]
  have hshown : ∀ n ∈ (s.noteSync.queue p).entries, n.refresh s.noteSync = n := fun n hn => by
    rw [hqueue] at hn
    unfold Note.refresh
    split
    · next hc => rw [noteSync_syncBody, ← accept_syncChange_body _ rfl _ n hn hc.2]
    · rfl
  have hentries : (s.noteSync.queue p).entries.map (Note.refresh s.noteSync) = (s.noteSync.queue p).entries :=
    (List.map_congr_left hshown).trans (List.map_id _)
  rw [settle_queue_eq, hentries, noteSync_queue h]

/-! ### The edge of a count -/

/-- The state with the frame event of its count taken and its REFIN edge no longer waiting, as the sync unit handles the edge. -/
def edgeTaken (s : State) : State := s.takeFrameEvent.modCount fun c => { c with refinEdge := false }

theorem edgeTaken_sync (s : State) : s.edgeTaken.sync = s.takeFrameEvent.sync := rfl
theorem edgeTaken_time (s : State) : s.edgeTaken.time = s.takeFrameEvent.time := rfl
theorem edgeTaken_plan (s : State) : s.edgeTaken.plan = s.takeFrameEvent.plan := rfl

section
variable {s : State}

theorem exec_refinEdge (h : s.count.refinEdge = true) : exec .refinEdge s = .next s.edgeTaken.handleEdge.settle := by
  have htake : s.takeRefin = s.edgeTaken.handleEdge := if_pos h
  show answer (if s.count.refinEdge then s.takeRefin else (s.beginCount .high s.lineIn).takeRefin) = _
  rw [if_pos h, htake]
  rfl

/-- A value that neither the sync unit, the queues nor the marks of the count hold is that after the frame event. -/
theorem edgeTaken_same {α : Type} (g : State → α) (hq : ∀ (s : State) p f, g (s.modQueue p f) = g s)
    (hc : ∀ (s : State) f, g (s.modCount f) = g s) (hs : ∀ (s : State) f, g (s.modSync f) = g s) :
    g s.edgeTaken.handleEdge = g s.takeFrameEvent :=
  (handleEdge_same g hq (fun t => hc t fun c => { c with syncPosted := true }) hs).trans (hc _ _)

theorem edgeTaken_settle_time : s.edgeTaken.handleEdge.settle.time = s.takeFrameEvent.time :=
  (settle_time _).trans (edgeTaken_same (·.time) (fun _ _ _ => rfl) (fun _ _ => rfl) fun _ _ => rfl)
theorem edgeTaken_settle_schedule : s.edgeTaken.handleEdge.settle.schedule = s.takeFrameEvent.schedule :=
  (settle_schedule _).trans (edgeTaken_same (·.schedule) (fun _ _ _ => rfl) (fun _ _ => rfl) fun _ _ => rfl)
theorem edgeTaken_settle_plan : s.edgeTaken.handleEdge.settle.plan = s.takeFrameEvent.plan :=
  (settle_plan _).trans (edgeTaken_same (·.plan) (fun _ _ _ => rfl) (fun _ _ => rfl) fun _ _ => rfl)

/-- The lines after an edge are those after the frame event, at the phase of the count. -/
theorem edgeTaken_settle_lines : s.edgeTaken.handleEdge.settle.lines = s.takeFrameEvent.settle.lines := by
  have hlines : s.edgeTaken.handleEdge.lines = s.takeFrameEvent.lines :=
    edgeTaken_same (·.lines) (fun _ _ _ => rfl) (fun _ _ => rfl) fun _ _ => rfl
  rw [settle_lines, settle_lines, hlines, ← settle_time, edgeTaken_settle_time]

/-- Neither the edge nor the frame event of its count waits any more. -/
theorem edgeTaken_settle_waits : s.edgeTaken.handleEdge.settle.count.refinEdge = false ∧
    s.edgeTaken.handleEdge.settle.count.raised = false := by
  rw [settle_count]
  exact ⟨handleEdge_same (·.count.refinEdge) (fun _ _ _ => rfl) (fun _ => rfl) fun _ _ => rfl,
    (handleEdge_same (·.count.raised) (fun _ _ _ => rfl) (fun _ => rfl) fun _ _ => rfl).trans (takeFrameEvent_not_raised s)⟩

theorem edgeTaken_discarded (hf : s.takeFrameEvent.sync.state = .free) :
    s.edgeTaken.handleEdge.settle.sync = s.takeFrameEvent.sync := by
  rw [settle_sync, handleEdge_free (s := s.edgeTaken) hf, edgeTaken_sync]

theorem edgeTaken_stray (hf : s.takeFrameEvent.sync.state ≠ .free) (hm : s.takeFrameEvent.sync.measured = true) :
    s.edgeTaken.handleEdge.settle.sync =
      { s.takeFrameEvent.sync with strayCount := satInc 65535 s.takeFrameEvent.sync.strayCount } := by
  rw [settle_sync, handleEdge_stray (s := s.edgeTaken) hf hm, modSync_sync, edgeTaken_sync]

/-! The first edge of a measurement frame. -/

section
variable (hf : s.takeFrameEvent.sync.state ≠ .free) (hm : s.takeFrameEvent.sync.measured = false)
include hf hm

theorem edgeTaken_first : s.edgeTaken.handleEdge = s.edgeTaken.measureEdge := handleEdge_first (s := s.edgeTaken) hf hm

theorem edgeTaken_measured : s.edgeTaken.handleEdge.settle.sync = s.takeFrameEvent.sync.measure
    s.takeFrameEvent.plan.record (errorAt s.takeFrameEvent.time.phase s.takeFrameEvent.time.len) := by
  rw [settle_sync, edgeTaken_first hf hm, measureEdge_sync, edgeTaken_sync, edgeTaken_time, edgeTaken_plan]

/-- An edge that orders a step leaves a queue without a SYNC_CHANGE of the count alone. -/
theorem edgeTaken_steps_queue {p : PortId} (hsteps : s.takeFrameEvent.plan.record.steps
      (errorAt s.takeFrameEvent.time.phase s.takeFrameEvent.time.len) = true)
    (hnone : ∀ n ∈ (s.takeFrameEvent.queue p).entries, n.stamp = s.takeFrameEvent.count.serial → n.body.kind ≠ .syncChange) :
    s.edgeTaken.handleEdge.settle.queue p = s.takeFrameEvent.queue p := by
  rw [edgeTaken_first hf hm, measureEdge_steps (s := s.edgeTaken) hsteps]
  exact settle_queue_of_none (u := s.edgeTaken.measuredAt) hnone

section
variable (hsteps : s.takeFrameEvent.plan.record.steps
    (errorAt s.takeFrameEvent.time.phase s.takeFrameEvent.time.len) = false)
  (hchange : s.edgeTaken.handleEdge.settle.sync.state ≠ s.takeFrameEvent.sync.state)
  (hc : s.takeFrameEvent.count.syncPosted = false) {p : PortId} (hp : s.takeFrameEvent.wantsSync p)
include hsteps hchange

theorem edgeTaken_changes : s.edgeTaken.handleEdge = s.edgeTaken.measuredAt.noteSync := by
  rw [settle_sync, edgeTaken_first hf hm] at hchange
  rw [edgeTaken_first hf hm, measureEdge_changes (s := s.edgeTaken) hsteps hchange]

include hc hp

/-- An edge that changes the sync state and orders no step posts SYNC_CHANGE, where the count has posted none (R111). -/
theorem edgeTaken_heard : s.edgeTaken.handleEdge.heardSync p := by
  rw [edgeTaken_changes hf hm hsteps hchange]
  exact heardSync_noteSync (s := s.edgeTaken.measuredAt) (hearsSync_first hp hc)

theorem edgeTaken_changes_queue : s.edgeTaken.handleEdge.settle.queue p =
    (s.takeFrameEvent.post p s.edgeTaken.handleEdge.settle.syncBody).queue p := by
  have hbody : s.edgeTaken.handleEdge.settle.syncBody = s.edgeTaken.measuredAt.syncBody := by
    rw [s.edgeTaken.handleEdge.sameReports_settle.syncBody, edgeTaken_changes hf hm hsteps hchange, noteSync_syncBody]
  rw [hbody, edgeTaken_changes hf hm hsteps hchange, settle_noteSync_queue (s := s.edgeTaken.measuredAt) hc hp]
  exact post_queue_congr _ _ p _ rfl rfl rfl

end
end
end
end State

/-- Settles O43: the edge is discarded, a stray or measured; a measured one by the state it finds, and by whether it orders a
step. -/
theorem refinEdgeIsMeasuredOncePerFrame : Obligations.RefinEdgeIsMeasuredOncePerFrame := by
  rintro s u hedge rfl
  obtain ⟨hedge_taken, hevent_taken⟩ := State.edgeTaken_settle_waits (s := s)
  refine ⟨State.takeFrameEvent_quiet, fun hw => ⟨_, congrArg answer (takeOrNext_now hw), rfl⟩,
    fun hw => ⟨_, congrArg answer (takeOrNext_now hw), rfl⟩, s.edgeTaken.handleEdge.settle, State.exec_refinEdge hedge,
    State.edgeTaken_settle_time, hedge_taken, hevent_taken, State.edgeTaken_settle_schedule, State.edgeTaken_settle_plan,
    State.edgeTaken_settle_lines, State.edgeTaken_discarded, State.edgeTaken_stray, fun hf hm e he => ?_⟩
  obtain rfl : e = errorAt s.takeFrameEvent.time.phase s.takeFrameEvent.time.len := he
  have hsync := (State.edgeTaken_measured hf hm).trans (SyncUnit.measure_eq _ _ _)
  generalize he : errorAt s.takeFrameEvent.time.phase s.takeFrameEvent.time.len = e at hsync ⊢
  have hstate := congrArg SyncUnit.state hsync
  have hrun := congrArg SyncUnit.alignedRun hsync
  dsimp only at hstate hrun
  refine ⟨?_, ?_, ?_, ?_, fun hs ha hr => ?_, fun hs ha hr => ?_, fun hs ha => ?_, fun hs ha => ?_, fun hs ha => ?_,
    fun hs => ?_, fun hsteps => ?_, fun hsteps => ?_⟩
  · rw [hsync]
  · rw [hsync]
  · rw [hsync]
  · rw [hsync]
    exact SyncUnit.measureState_strayCount _ _
  · rw [hstate, hrun, SyncUnit.measureState_aligned hs ha hr]
    exact ⟨rfl, rfl⟩
  · rw [hstate, hrun, SyncUnit.measureState_locks hs ha hr]
    exact ⟨rfl, rfl⟩
  · rw [hstate, hrun, SyncUnit.measureState_unaligned hs ha]
    exact ⟨rfl, rfl⟩
  · rw [hstate, hrun, SyncUnit.measureState_stays_locked hs ha]
    exact ⟨hs, rfl⟩
  · rw [hstate, hrun, SyncUnit.measureState_leaves_locked hs ha]
    exact ⟨rfl, rfl⟩
  · rw [hsync, SyncUnit.measureState_holdover hs]
    exact ⟨rfl, rfl, rfl⟩
  · rw [← steps_iff] at hsteps
    refine ⟨?_, ?_, fun hr _ p hnone => ?_⟩
    · rw [hsync]
      exact if_pos hsteps
    · rw [hsync]
      exact if_pos hsteps
    · have hquiet := State.takeFrameEvent_quiet hr
      have hqueue := State.edgeTaken_steps_queue hf hm (p := p) (he ▸ hsteps) (by rwa [hquiet])
      rwa [hquiet] at hqueue
  · have hnone := steps_eq_false hsteps
    refine ⟨?_, ?_, fun hchange hc p => ⟨?_, fun hr _ hopen henable => ?_⟩⟩
    · rw [hsync]
      exact if_neg (Bool.not_eq_true _ ▸ hnone)
    · rw [hsync]
      exact (if_neg (Bool.not_eq_true _ ▸ hnone)).trans (SyncUnit.measureState_stepOrder _ _)
    · exact State.noted_of_heardSync (State.edgeTaken_heard hf hm (he ▸ hnone) hchange hc)
    · have hquiet := State.takeFrameEvent_quiet hr
      have hqueue := State.edgeTaken_changes_queue hf hm (he ▸ hnone) hchange hc (p := p) (by rw [hquiet]; exact ⟨hopen, henable⟩)
      rwa [hquiet] at hqueue

end Sys2Proof.Machine
end

section
/-! PROOFS. The plan unit: posts to a set of ports (R133), the answer to the proposer (R119, R126), and a proposal that ends
without applying (R123 to R125). -/

namespace Sys2Proof.Machine

/-! ### Sets of ports -/

theorem getLsbD_withoutPort (x : PortSet) (p q : PortId) :
    (withoutPort x p).getLsbD q.val = (x.getLsbD q.val && decide (q ≠ p)) := by
  revert x p q
  decide

/-- A port set is its members. -/
theorem portSet_ext {x y : PortSet} (h : ∀ q : PortId, x.getLsbD q.val = y.getLsbD q.val) : x = y :=
  BitVec.eq_of_getLsbD_eq fun i hi => h ⟨i, hi⟩

namespace State

/-! ### Posts to several ports (R126, R133) -/

theorem sameQueue_refl (s : State) (p : PortId) : SameQueue p s s := ⟨rfl, rfl, rfl⟩

theorem sameQueue_marked (s : State) (p q : PortId) : SameQueue q (s.marked p) s := ⟨marked_isOpen s p q, rfl, rfl⟩

/-- A post to another port. -/
theorem SameQueue.post_other {p q : PortId} {a b : State} (h : SameQueue p a b) (hq : q ≠ p) (x : NoteBody) :
    SameQueue p (a.post q x) b :=
  ⟨(post_isOpen a p q x).trans h.isOpen, (post_queue_ne a x hq).trans h.queue, by rw [post_count]; exact h.serial⟩

/-- Each port of the set is posted the notification, once. -/
theorem postSet_queue (s : State) (x : PortSet) (b : NoteBody) (q : PortId) : (s.postSet x b).queue q =
    if x.getLsbD q.val = true then (s.post q b).queue q else s.queue q := by
  refine forPorts_reaches_one (P := fun t => SameQueue q t s) (Q := fun t => t.queue q =
    if x.getLsbD q.val = true then (s.post q b).queue q else s.queue q) q (fun r t hr ht => ?_) (fun r t hr ht => ?_)
    (fun t ht => ?_) s (sameQueue_refl s q)
  · split
    · exact ht.post_other hr b
    · exact ht
  · split
    · exact (post_queue_ne t _ hr).trans ht
    · exact ht
  · split
    · exact (ht.post b).queue
    · exact ht.queue

/-- Every port is posted PLAN_APPLIED, once. -/
theorem announcePlan_queue (s : State) (q : PortId) :
    s.announcePlan.queue q = (s.post q (.planApplied s.plan.number s.time.frame)).queue q := by
  refine forPorts_reaches_one (P := fun t => SameQueue q t s ∧ t.plan = s.plan ∧ t.time = s.time) (Q := fun t => t.queue q =
    (s.post q (.planApplied s.plan.number s.time.frame)).queue q) q (fun r t hr ⟨hsame, hplan, htime⟩ => ?_)
    (fun r t hr ht => (post_queue_ne t _ hr).trans ht) (fun t ⟨hsame, hplan, htime⟩ => ?_) s ⟨sameQueue_refl s q, rfl, rfl⟩
  · exact ⟨hsame.post_other hr _, (post_plan t r _).trans hplan, (post_time t r _).trans htime⟩
  · rw [hplan, htime]
    exact (hsame.post _).queue

/-- A post that its port hears shows in the queue. -/
theorem post_shows {s : State} {p : PortId} {b : NoteBody} (ho : s.isOpen p = true)
    (he : (s.queue p).enable.getLsbD b.kind.bit = true) : ((s.post p b).queue p).shows b := by
  rw [post_accepted b ho he, queue_modQueue_same]
  exact accept_shows _ _ _

/-- A queue that was posted to under a condition, and nothing else since, stays so when the state is settled. -/
theorem settle_queue_posted {s u : State} (hs : s.settled) {q : PortId} {a : Prop} [Decidable a] {b : NoteBody}
    (hb : b.kind ≠ .syncChange) (hq : u.queue q = if a then (s.post q b).queue q else s.queue q)
    (hserial : u.count.serial = s.count.serial) (hsync : u.sync = s.sync) (htime : u.time = s.time) :
    u.settle.queue q = if a then (s.post q b).queue q else s.queue q := by
  split
  · next ha => exact settle_queue_accept s u hs q b hb (hq.trans (if_pos ha)) hserial hsync htime
  · next ha => exact settle_queue_of s u hs q (hq.trans (if_neg ha)) hserial hsync htime

/-! ### The answer to the proposer (R119, R126, R146) -/

theorem answerProposer_isOpen (s : State) (x : Proposal) (r : Result) (b : Body) (q : PortId) :
    (s.answerProposer x r b).isOpen q = s.isOpen q := by
  refine answerProposer_keeps (P := fun t => t.isOpen q = s.isOpen q) (fun t p o r b ht => ?_) s x r b rfl
  rcases answerDeferred_cases t p o r b with e | ⟨_, _, e⟩ <;> rw [e]
  · exact ht
  · rw [isOpen_modPort_of t p _ rfl]
    exact ht

theorem sameQueue_answerProposer (s : State) (x : Proposal) (r : Result) (b : Body) (q : PortId) :
    SameQueue q (s.answerProposer x r b) s :=
  ⟨answerProposer_isOpen s x r b q, answerProposer_same s (·.queue q) (fun _ _ _ => rfl) x r b,
    answerProposer_same s (·.count.serial) (fun _ _ _ => rfl) x r b⟩

/-- A proposer request that stands is answered. -/
theorem answerProposer_responses {s : State} {x : Proposal} (r : Result) (b : Body) {q : PortId} {i : Byte} {d : Deferred}
    (hq : x.request = some (q, i)) (hd : (s.port q).deferred.find? (fun d => decide (d.owner = .plan)) = some d) :
    ⟨d.kind, d.id, r, b, s.count.serial⟩ ∈ ((s.answerProposer x r b).port q).responses := by
  simp only [answerProposer, hq, answerDeferred, hd, port_modPort_same]
  exact List.mem_append_right _ (List.mem_singleton.mpr rfl)

/-! ### A proposal that ends without applying (R123 to R125) -/

section
variable (s : State) (x : Proposal) (told : PortSet) (r : Result) (j : Option PortId) (o : PlanOutcome)

theorem endProposal_port (q : PortId) : (s.endProposal x told r j o).port q =
    (s.answerProposer x r (.propose x.number j 0 0)).port q :=
  postSet_same _ (·.port q) (fun _ _ _ => rfl) told _

theorem endProposal_queue (q : PortId) : (s.endProposal x told r j o).queue q = if told.getLsbD q.val = true then
    (s.post q (.planOutcome x.number o)).queue q else s.queue q := by
  have hsame := sameQueue_answerProposer s x r (.propose x.number j 0 0) q
  refine (postSet_queue _ told (.planOutcome x.number o) q).trans ?_
  rw [(hsame.post _).queue, hsame.queue]

variable {s x}

/-- The proposer request, where it stands, is answered that the proposal has ended. -/
theorem endProposal_responses {q : PortId} {i : Byte} {d : Deferred} (hq : x.request = some (q, i))
    (hd : (s.port q).deferred.find? (fun d => decide (d.owner = .plan)) = some d) :
    ⟨d.kind, d.id, r, .propose x.number j 0 0, s.count.serial⟩ ∈ ((s.endProposal x told r j o).port q).responses := by
  rw [endProposal_port]
  exact answerProposer_responses r _ hq hd

/-- A port that is told, and hears it, finds the outcome in its queue. -/
theorem endProposal_shows {q : PortId} (ht : told.getLsbD q.val = true) (ho : s.isOpen q = true)
    (he : (s.queue q).enable.getLsbD (NoteBody.planOutcome x.number o).kind.bit = true) :
    ((s.endProposal x told r j o).queue q).shows (.planOutcome x.number o) := by
  rw [endProposal_queue, if_pos ht]
  exact post_shows ho he

end
end State
end Sys2Proof.Machine
end

section
/-! PROOFS. The plan unit at a frame boundary event (R115, R125, R126, R133): what a vote window that expires and a plan that
applies establish, and that the rest of the event and of its count keeps it. -/

namespace Sys2Proof.Machine
namespace State

/-! ### The state in which the event reaches the plan unit -/

/-- What the plan unit reads at the event is as before the event: the plan, the links, the time base, the count, and who hears
notifications. -/
structure ReachesPlan (s t : State) : Prop where
  plan : t.plan = s.plan
  ports : t.ports = s.ports
  time : t.time = s.time
  serial : t.count.serial = s.count.serial
  enable : ∀ p, (t.queue p).enable = (s.queue p).enable

namespace ReachesPlan
variable {s t : State} (h : ReachesPlan s t)
include h

theorem port (p : PortId) : t.port p = s.port p := congrArg (fun v : Vector Port 4 => v[p]) h.ports

theorem isOpen (p : PortId) : t.isOpen p = s.isOpen p := congrArg Port.isOpen (h.port p)

theorem post (q : PortId) (b : NoteBody) : ReachesPlan s (t.post q b) where
  plan := (post_plan t q b).trans h.plan
  ports := (post_ports t q b).trans h.ports
  time := (post_time t q b).trans h.time
  serial := (congrArg Count.serial (post_count t q b)).trans h.serial
  enable p := by
    rw [← h.enable p]
    rcases post_cases t q b with e | e <;> rw [e]
    rw [queue_modQueue]
    split
    · next hq => subst hq; exact accept_enable _ _ _
    · rfl

theorem modSync (f : SyncUnit → SyncUnit) : ReachesPlan s (t.modSync f) := ⟨h.plan, h.ports, h.time, h.serial, h.enable⟩

theorem noteSync : ReachesPlan s t.noteSync := by
  unfold State.noteSync
  split
  · exact h
  · exact forPorts_keeps (fun q u hu => hu.post q _) _ ⟨h.plan, h.ports, h.time, h.serial, h.enable⟩

/-- The sync unit closes the measurement frame before the plan unit takes the event, and leaves what that reads. -/
theorem boundarySyncClose : ReachesPlan s t.boundarySyncClose :=
  changeSync_keeps (fun _ hu => hu.noteSync) (fun _ f hu => hu.modSync f) t _ h

/-! ### The vote window expires (R125) -/

variable {x : Proposal} (hx : s.plan.proposal = some x)
include hx

section
variable (hv : x.state = .voting) (hr : x.remaining ≤ 1)
include hv hr

theorem boundaryPlan_expired : t.boundaryPlan = t.endProposal x x.required .expired none .expired := by
  have hzero : x.remaining - 1 = 0 := by omega
  unfold State.boundaryPlan
  rw [h.plan, hx]
  simp only [hv, if_pos hzero]

theorem expired_responses {p : PortId} {id : Byte} {d : Deferred} (hq : x.request = some (p, id))
    (hd : (s.port p).deferred.find? (fun d => decide (d.owner = .plan)) = some d) :
    ⟨d.kind, d.id, .expired, .propose x.number none 0 0, s.count.serial⟩ ∈ (t.boundaryPlan.port p).responses := by
  rw [h.boundaryPlan_expired hx hv hr, ← h.serial]
  exact endProposal_responses _ _ _ _ hq (by rw [h.port]; exact hd)

theorem expired_shows {p : PortId} (hp : x.required.getLsbD p.val = true) (ho : s.isOpen p = true)
    (he : (s.queue p).enable.getLsbD (NoteBody.planOutcome x.number .expired).kind.bit = true) :
    (t.boundaryPlan.queue p).shows (.planOutcome x.number .expired) := by
  rw [h.boundaryPlan_expired hx hv hr]
  exact endProposal_shows _ _ _ _ hp ((h.isOpen p).trans ho) (by rw [h.enable]; exact he)

end

/-! ### The plan applies (R126) -/

variable (ha : x.state = .agreed)
include ha

theorem boundaryPlan_applied : t.boundaryPlan = t.applyPlan x := by
  unfold State.boundaryPlan
  rw [h.plan, hx]
  simp only [ha]

theorem applied_responses {p : PortId} {id : Byte} {d : Deferred} (hq : x.request = some (p, id))
    (hd : (s.port p).deferred.find? (fun d => decide (d.owner = .plan)) = some d) :
    ⟨d.kind, d.id, .ok, .propose x.number none s.time.frame (s.plan.number + 1), s.count.serial⟩ ∈
      (t.boundaryPlan.port p).responses := by
  have hport : ((t.setPlan x.plan).announcePlan).port p = s.port p :=
    (forPorts_same (·.port p) (fun q u => post_same (·.port p) (fun _ _ _ => rfl) u q _) _).trans (h.port p)
  have hserial : ((t.setPlan x.plan).announcePlan).count.serial = s.count.serial :=
    (forPorts_same (·.count.serial) (fun q u => post_same (·.count.serial) (fun _ _ _ => rfl) u q _) _).trans h.serial
  rw [h.boundaryPlan_applied hx ha, ← hserial, ← h.time, ← h.plan]
  exact answerProposer_responses _ _ hq (by rw [hport]; exact hd)

theorem applied_shows {p : PortId} (ho : s.isOpen p = true)
    (he : (s.queue p).enable.getLsbD (NoteBody.planApplied (s.plan.number + 1) s.time.frame).kind.bit = true) :
    (t.boundaryPlan.queue p).shows (.planApplied (s.plan.number + 1) s.time.frame) := by
  have hqueue : (t.applyPlan x).queue p = (t.setPlan x.plan).announcePlan.queue p :=
    answerProposer_same _ (·.queue p) (fun _ _ _ => rfl) x _ _
  rw [h.boundaryPlan_applied hx ha, hqueue, announcePlan_queue, ← h.time, ← h.plan]
  exact post_shows (s := t.setPlan x.plan) ((h.isOpen p).trans ho) (by rw [← h.enable] at he; exact he)

end ReachesPlan

/-! ### What stands after the event -/

/-- What the event at the plan unit leaves, the blocks that take the event later keep, and so do the resolutions of the
count. -/
structure KeptAfterPlan (Q : State → Prop) : Prop where
  afterLine : ∀ k, KeptAfterLine k Q
  sync : ∀ s f, Q s → Q (s.modSync f)

/-- An answer in a response queue stays there. -/
theorem response_keptAfterPlan (p : PortId) (x : Response) : KeptAfterPlan fun t => x ∈ (t.port p).responses :=
  ⟨fun k => response_keptAfterLine k p x, fun _ _ h => h⟩

/-- A notification of a kind that does not coalesce stays in its queue. -/
theorem shows_keptAfterPlan (p : PortId) {b : NoteBody} (hb : b.kind.coalescing = false) :
    KeptAfterPlan fun t => (t.queue p).shows b :=
  ⟨fun k => shows_keptAfterLine k p hb, fun _ _ h => h⟩

section
variable {Q : State → Prop} (h : KeptAfterPlan Q) {s : State}
include h

theorem KeptAfterPlan.line (u : State) (j : LineId) (f : Line → Line) (hu : Q u) : Q (u.modLine j f) :=
  (h.afterLine (j + 1)).line u j f (by revert j; decide) hu

/-- What the plan unit establishes at the event holds after a frame boundary event. -/
theorem KeptAfterPlan.frameBoundary {u : State} (hu : ReachesPlan s u) (hplan : ∀ t, ReachesPlan s t → Q t.boundaryPlan) :
    Q u.frameBoundary := by
  have hline := h.afterLine 0
  have hopened : Q u.boundaryPlanAndSync :=
    boundarySyncOpen_keeps (fun _ ht => hline.noteSync ht) h.sync _ _ (hplan _ hu.boundarySyncClose)
  unfold State.frameBoundary boundaryTime boundaryTable
  exact hline.time _ _ (boundaryLines_keeps hline.post hline.deferred h.line _ _ _ hopened)

/-- It holds after the frame event of a count that takes a frame boundary event, the SYNC_CHANGE of a forward step included. -/
theorem KeptAfterPlan.takeFrameEvent (hw : s.boundaryWaits = true) (hplan : ∀ t, ReachesPlan s t → Q t.boundaryPlan) :
    Q s.takeFrameEvent := by
  have hboundary : Q (s.modCount fun c => { c with raised := false }).frameBoundary :=
    h.frameBoundary (s := s) ⟨rfl, rfl, rfl, rfl, fun _ => rfl⟩ hplan
  obtain ⟨hr, hm⟩ := boundaryWaits_iff.mp hw
  unfold State.takeFrameEvent frameEvent
  rw [if_pos hr]
  cases hmove : s.count.move with
  | backward => exact absurd hmove hm
  | forward held => exact (h.afterLine 0).noteSync hboundary
  | ordinary | insertion | deletion => exact hboundary

end

/-- The plan unit after the frame event of a count that takes a frame boundary event. -/
theorem takeFrameEvent_plan {s : State} (hw : s.boundaryWaits = true) : s.takeFrameEvent.plan = s.boundaryPlan.plan := by
  rw [takeFrameEvent_boundary s (·.plan) (fun _ _ _ => rfl) (fun _ => rfl) hw, frameBoundary_plan, boundaryPlan_plan,
    boundaryPlan_plan, modCount_plan]

/-- A vote window that expires leaves the plan unit without its proposal. -/
theorem boundaryPlan_plan_expired {s : State} {x : Proposal} (hx : s.plan.proposal = some x) (hv : x.state = .voting)
    (hr : x.remaining ≤ 1) : s.boundaryPlan.plan = { s.plan with proposal := none } := by
  have hzero : x.remaining - 1 = 0 := by omega
  rw [boundaryPlan_plan, hx]
  simp only [hv, if_pos hzero]

/-- Either command that takes the event leaves the plan unit as the event does, and keeps what it establishes. -/
theorem exec_boundary_plan {s : State} {c : Instr} (h : s.boundaryTakenBy c) : ∃ u : State,
    exec c s = .next u.settle ∧ u.plan = s.boundaryPlan.plan ∧
      ∀ Q, KeptAfterPlan Q → (∀ t, ReachesPlan s t → Q t.boundaryPlan) → Q u := by
  obtain ⟨hw, ⟨_, he⟩ | ⟨_, he⟩⟩ := exec_boundaryTakenBy h
  · exact ⟨_, he, takeFrameEvent_plan hw, fun _ hQ hplan => hQ.takeFrameEvent hw hplan⟩
  · exact ⟨_, he, (resolveAll_plan _).trans (takeFrameEvent_plan hw),
      fun _ hQ hplan => (hQ.afterLine 0).resolveAll (hQ.takeFrameEvent hw hplan)⟩

end State

/-- Settles O16: the plan unit by the proposal it finds, and what it establishes the rest of the event keeps. -/
theorem frameBoundaryCountsOrAppliesThePlan : Obligations.FrameBoundaryCountsOrAppliesThePlan := by
  intro s c h
  obtain ⟨u, hexec, hplan, reached⟩ := State.exec_boundary_plan h
  refine ⟨u.settle, hexec, fun hx => ?_, fun x hx => ⟨fun ha => ⟨?_, fun p => ?_, fun p id d hq hd => ?_⟩,
    fun hv hr => ?_, fun hv hr => ⟨?_, fun p hp => ?_⟩⟩⟩
  · rw [State.settle_plan, hplan, State.boundaryPlan_plan, hx]
  · rw [State.settle_plan, hplan, State.boundaryPlan_plan, hx]
    simp only [ha]
  · exact State.noted_of_shows nofun fun ho he => reached _ (State.shows_keptAfterPlan p rfl) fun t ht =>
      ht.applied_shows hx ha ho he
  · exact State.mem_settle_responses (reached _ (State.response_keptAfterPlan p _) fun t ht =>
      ht.applied_responses hx ha hq hd) rfl
  · have hmore : ¬x.remaining - 1 = 0 := by omega
    rw [State.settle_plan, hplan, State.boundaryPlan_plan, hx]
    simp only [hv, if_neg hmore]
  · rw [State.settle_plan, hplan, State.boundaryPlan_plan_expired hx hv hr]
  · exact State.noted_of_shows nofun fun ho he => reached _ (State.shows_keptAfterPlan p rfl) fun t ht =>
      ht.expired_shows hx hv hr hp ho he

/-- Settles O21: the event at which the vote window expires is taken in this count. -/
theorem voteWindowExpiryEndsTheProposal : Obligations.VoteWindowExpiryEndsTheProposal := by
  intro s x hw hx hv hr
  have hexpires : s.voteExpires = true := by
    unfold State.voteExpires
    rw [hx]
    exact Bool.and_eq_true_iff.mpr ⟨decide_eq_true hv, decide_eq_true (by omega)⟩
  have hexec : exec .voteWindowExpiry s = .next s.takeFrameEvent.settle :=
    congrArg answer (takeOrNext_now (waits := fun t => t.boundaryWaits && t.voteExpires)
      (Bool.and_eq_true_iff.mpr ⟨hw, hexpires⟩))
  refine ⟨_, hexec, ?_, State.takeFrameEvent_raised hw, fun p id d hq hd => ?_, fun p hp => ?_⟩
  · rw [State.settle_plan, State.takeFrameEvent_plan hw, State.boundaryPlan_plan_expired hx hv hr]
  · exact State.mem_settle_responses ((State.response_keptAfterPlan p _).takeFrameEvent hw fun t ht =>
      ht.expired_responses hx hv hr hq hd) rfl
  · exact State.noted_of_shows nofun fun ho he => (State.shows_keptAfterPlan p rfl).takeFrameEvent hw fun t ht =>
      ht.expired_shows hx hv hr hp ho he

end Sys2Proof.Machine
end

section
/-! PROOFS. The requests of the plan unit: PLAN_PROPOSE (R116, R118, R119), PLAN_VOTE (R121 to R123) and PLAN_WITHDRAW (R124). -/

namespace Sys2Proof.Machine

/-! ### The operands of PLAN_PROPOSE (R118) -/

theorem stepPolicyOf_none {b : Byte} (h : 1 < b.toNat) : stepPolicyOf b = none := by
  unfold stepPolicyOf
  rw [if_neg, if_neg] <;> rintro rfl <;> exact absurd h (by decide)

/-- A plan with a field out of range is none (R118, check 2). -/
theorem planOf_none {f : PlanFields} (h : f.frameLength.toNat < 1000 ∨ 1 < f.refEnable.toNat ∨ f.slewLimit = 0 ∨
    1 < f.stepPolicy.toNat ∨ f.voteWindow = 0 ∨ f.portQuota = 0 ∨ 128 < f.portQuota.toNat) : planOf f = none := by
  unfold planOf
  split
  · next hen hpol =>
    refine if_neg fun ⟨hlen, hslew, hwindow, hquota, hmost⟩ => ?_
    rcases h with h | h | h | h | h | h | h
    · omega
    · rw [yesNoOf_none h] at hen; cases hen
    · rw [h] at hslew; exact absurd hslew (by decide)
    · rw [stepPolicyOf_none h] at hpol; cases hpol
    · rw [h] at hwindow; exact absurd hwindow (by decide)
    · rw [h] at hquota; exact absurd hquota (by decide)
    · omega
  · rfl

theorem planOf_codes {r : Plan} (hlen : 1000 ≤ r.frameLength.toNat) (hslew : r.slewLimit ≠ 0) (hwindow : r.voteWindow ≠ 0)
    (hquota : r.portQuota ≠ 0) (hmost : r.portQuota.toNat ≤ 128) :
    planOf ⟨r.frameLength, flagByte r.refEnable, r.slipWindow, r.slewLimit, r.stepPolicy.code, r.holdoverLimit,
      r.voteWindow, r.portQuota⟩ = some r := by
  simp only [planOf, yesNoOf_flagByte, stepPolicyOf_code]
  exact if_pos ⟨hlen, BitVec.toNat_pos_of_ne_zero hslew, BitVec.toNat_pos_of_ne_zero hwindow,
    BitVec.toNat_pos_of_ne_zero hquota, hmost⟩

/-- With no number in use a counter passes over 0 alone (R116). -/
theorem advanceCounter_nil {w : Nat} (v : BitVec w) : advanceCounter [] v = if v + 1 = 0 then 1 else v + 1 := by
  split
  · next h =>
    unfold advanceCounter nextNumber
    rw [if_pos (Or.inl h), h]
    exact BitVec.zero_add 1
  · next h => exact advanceCounter_next [] v fun hp => hp.elim h nofun

namespace State

/-! ### PLAN_PROPOSE (R118, R119) -/

section
variable {s : State} (p : PortId) (id : Byte)

theorem planPropose_busy (f : PlanFields) {x : Proposal} (hx : s.plan.proposal = some x) :
    s.planPropose p id f = s.respond p kindPlanPropose id .planBusy (.propose x.number none 0 0) := by
  unfold planPropose
  rw [hx]
  rfl

variable {f : PlanFields} (hx : s.plan.proposal = none)
include hx

theorem planPropose_badValue (hf : planOf f = none) :
    s.planPropose p id f = s.respond p kindPlanPropose id .badValue (.propose 0 none 0 0) := by
  unfold planPropose
  rw [hx, hf]
  rfl

theorem planPropose_accepted {r : Plan} (hf : planOf f = some r) : s.planPropose p id f = s.acceptPropose p id r := by
  unfold planPropose
  rw [hx, hf]

end

section
variable (s : State) (p : PortId) (id : Byte) (r : Plan)

/-- A value that neither the queues, the links nor the plan unit hold. -/
theorem acceptPropose_same {α : Type} (g : State → α) (hq : ∀ (s : State) p f, g (s.modQueue p f) = g s)
    (hp : ∀ (s : State) p f, g (s.modPort p f) = g s) (hpl : ∀ (s : State) x, g { s with plan := x } = g s) :
    g (s.acceptPropose p id r) = g s :=
  (postSet_same _ g hq _ _).trans ((hp _ _ _).trans (hpl s _))

theorem acceptPropose_plan : (s.acceptPropose p id r).plan =
    ⟨s.plan.record, s.plan.number, some (s.newProposal p id r), advanceCounter [] s.plan.counter⟩ :=
  postSet_same _ (·.plan) (fun _ _ _ => rfl) _ _

theorem acceptPropose_port (q : PortId) :
    (s.acceptPropose p id r).port q = (s.hold p kindPlanPropose id .plan).port q :=
  postSet_same _ (·.port q) (fun _ _ _ => rfl) _ _

theorem marked_responses (q : PortId) : ((s.marked p).port q).responses = (s.port q).responses := by
  rw [marked_port]
  split
  · next e => rw [e]
  · rfl

theorem hold_responses (o : DeferredOwner) (kind : Byte) (q : PortId) :
    ((s.hold p kind id o).port q).responses = (s.port q).responses := by
  unfold hold
  rw [port_modPort]
  split
  · next e => rw [e]
  · rfl

/-- The required voters, and no other port, are posted PLAN_PENDING. -/
theorem acceptPropose_queue (q : PortId) : (s.acceptPropose p id r).queue q =
    if (s.newProposal p id r).required.getLsbD q.val = true then (s.post q (.planPending s.plan.counter p r)).queue q
    else s.queue q := by
  have hopen : ((s.setProposal (some (s.newProposal p id r))).bumpProposals.hold p kindPlanPropose id .plan).isOpen q =
      s.isOpen q := by
    unfold hold
    exact isOpen_modPort_of _ p _ rfl q
  refine (postSet_queue _ (s.newProposal p id r).required (.planPending s.plan.counter p r) q).trans ?_
  rw [post_queue_congr _ s q _ hopen rfl rfl]
  rfl

end

section
variable {s : State} (p : PortId) (id : Byte) (r : Plan)

/-- The queues after the request is taken on a settled state. -/
theorem settle_acceptPropose_queue (hs : s.settled) (q : PortId) : ((s.marked p).acceptPropose p id r).settle.queue q =
    if (withoutPort s.openPorts p).getLsbD q.val = true then (s.post q (.planPending s.plan.counter p r)).queue q
    else s.queue q := by
  have hqueue := acceptPropose_queue (s.marked p) p id r q
  rw [newProposal, marked_openPorts, ((sameQueue_marked s p q).post _).queue] at hqueue
  refine settle_queue_posted hs nofun hqueue ?_ ?_ ?_
  · exact acceptPropose_same _ p id r (·.count.serial) (fun _ _ _ => rfl) (fun _ _ _ => rfl) fun _ _ => rfl
  · exact acceptPropose_same _ p id r (·.sync) (fun _ _ _ => rfl) (fun _ _ _ => rfl) fun _ _ => rfl
  · exact acceptPropose_same _ p id r (·.time) (fun _ _ _ => rfl) (fun _ _ _ => rfl) fun _ _ => rfl

/-- An accepted request is not answered yet: the responses only follow the end of the count. -/
theorem settle_acceptPropose_responses (q : PortId) : (((s.marked p).acceptPropose p id r).settle.port q).responses =
    (s.port q).responses.map (Response.refresh ((s.marked p).acceptPropose p id r).settle q) := by
  rw [settle_port_eq, refreshPort, acceptPropose_port, hold_responses, marked_responses,
    funext (((s.marked p).acceptPropose p id r).sameReports_settle.response q)]

theorem settle_acceptPropose_deferred : (((s.marked p).acceptPropose p id r).settle.port p).deferred =
    (s.port p).deferred ++ [⟨kindPlanPropose, id, .plan⟩] := by
  rw [settle_port_eq, acceptPropose_port]
  simp [refreshPort, hold]

end

/-- The ports asked are the others that are open. -/
theorem withoutPort_openPorts {s : State} {p : PortId} {required : PortSet}
    (h : ∀ q : PortId, required.getLsbD q.val = (decide (q ≠ p) && s.isOpen q)) :
    withoutPort s.openPorts p = required := portSet_ext fun q => by
  rw [getLsbD_withoutPort, openPorts, getLsbD_portSet, h, Bool.and_comm]

end State

/-- Settles O44: busy, out of range, or a proposal created. -/
theorem planProposeCreatesOneProposal : Obligations.PlanProposeCreatesOneProposal := by
  intro s p id f h
  refine ⟨fun x hx => ?_, fun hx hf => ?_, fun r required hx hf hlen hslew hwindow hquota hmost hreq => ?_⟩
  · exact answer_take_fixed h kindPlanPropose id _ (State.planPropose_busy (s := s.marked p) p id f hx) rfl
  · exact answer_take_fixed h kindPlanPropose id _ (State.planPropose_badValue (s := s.marked p) p id hx (planOf_none hf)) rfl
  · have hplanOf : planOf f = some r := hf ▸ planOf_codes hlen hslew hwindow hquota hmost
    have hexec : exec (.planPropose p id f) s = .next ((s.marked p).acceptPropose p id r).settle := by
      show answer ((s.linkCount p).take p kindPlanPropose id true _) = _
      rw [answer_take_open h, State.planPropose_accepted (s := s.marked p) p id hx hplanOf]
    have hasked := State.withoutPort_openPorts hreq
    have hnew : (s.marked p).newProposal p id r = ⟨s.plan.counter, p, r, required, 0, s.plan.record.voteWindow.toNat,
        if required = 0 then .agreed else .voting, some (p, id)⟩ := by
      rw [State.newProposal, State.marked_openPorts, hasked]
      rfl
    have hplan := State.acceptPropose_plan (s.marked p) p id r
    rw [hnew, advanceCounter_nil, State.marked_plan] at hplan
    refine ⟨_, hexec, ?_, ?_, ?_, ?_, State.settle_acceptPropose_deferred p id r,
      State.settle_acceptPropose_responses p id r, fun q => ?_⟩
    · rw [State.settle_plan, hplan]
    · rw [State.settle_plan, hplan]
    · rw [State.settle_plan, hplan]
    · rw [State.settle_plan, hplan]
    · rw [State.settle_acceptPropose_queue p id r h.2.2, hasked]

namespace State

/-! ### A request that ends the proposal (R123, R124) -/

/-- The proposal ended by a request of port `p`, which is answered OK. -/
def endAndAnswer (p : PortId) (kind id : Byte) (b : Body) (x : Proposal) (told : PortSet) (r : Result)
    (j : Option PortId) (o : PlanOutcome) (s : State) : State :=
  (s.endProposal x told r j o).respond p kind id .ok b

section
variable (s : State) (p : PortId) (kind id : Byte) (b : Body) (x : Proposal) (told : PortSet) (r : Result)
  (j : Option PortId) (o : PlanOutcome)

theorem endAndAnswer_same {α : Type} (g : State → α) (hq : ∀ (s : State) p f, g (s.modQueue p f) = g s)
    (hp : ∀ (s : State) p f, g (s.modPort p f) = g s) (hpl : ∀ (s : State) x, g { s with plan := x } = g s) :
    g (s.endAndAnswer p kind id b x told r j o) = g s := by
  unfold endAndAnswer respond
  rw [hp, endProposal_same s g hq hp hpl]

/-- The answers of a port: those to its deferred requests, then the request's own. -/
theorem endAndAnswer_responses (q : PortId) : ((s.endAndAnswer p kind id b x told r j o).port q).responses =
    ((s.endProposal x told r j o).port q).responses ++ if p = q then [⟨kind, id, .ok, b, s.count.serial⟩] else [] := by
  have hserial : (s.endProposal x told r j o).count.serial = s.count.serial :=
    endProposal_same s (·.count.serial) (fun _ _ _ => rfl) (fun _ _ _ => rfl) (fun _ _ => rfl) x told r j o
  unfold endAndAnswer respond
  rw [port_modPort, hserial]
  split
  · next e => rw [e]
  · rw [List.append_nil]

end
end State

/-- What a request leaves that ends the proposal, on a settled state. -/
structure EndsProposal (s : State) (p : PortId) (kind id : Byte) (b : Body) (x : Proposal) (told : PortSet) (r : Result)
    (j : Option PortId) (o : PlanOutcome) (t : State) : Prop where
  plan : t.plan = { s.plan with proposal := none }
  own : (t.port p).responses.getLast? = some ⟨kind, id, .ok, b, s.count.serial⟩
  proposer : ∀ q i d, x.request = some (q, i) →
    (s.port q).deferred.find? (fun d => decide (d.owner = .plan)) = some d →
    ⟨d.kind, d.id, r, .propose x.number j 0 0, s.count.serial⟩ ∈ (t.port q).responses
  outcome : ∀ q, t.queue q = if told.getLsbD q.val = true then (s.post q (.planOutcome x.number o)).queue q else s.queue q

theorem endAndAnswer_endsProposal {s : State} (hs : s.settled) (p : PortId) (kind id : Byte) {b : Body}
    (hb : b.fixed = true) (x : Proposal) (told : PortSet) (r : Result) (j : Option PortId) (o : PlanOutcome) :
    EndsProposal s p kind id b x told r j o ((s.marked p).endAndAnswer p kind id b x told r j o).settle := by
  have hresponses := State.endAndAnswer_responses (s.marked p) p kind id b x told r j o
  have hplan : ((s.marked p).endAndAnswer p kind id b x told r j o).plan = { s.plan with proposal := none } :=
    State.endProposal_plan (s.marked p) x told r j o
  have hqueue : ∀ q, ((s.marked p).endAndAnswer p kind id b x told r j o).queue q =
      if told.getLsbD q.val = true then (s.post q (.planOutcome x.number o)).queue q else s.queue q := fun q => by
    refine (State.endProposal_queue (s.marked p) x told r j o q).trans ?_
    rw [((State.sameQueue_marked s p q).post _).queue, State.marked_queue]
  refine ⟨hplan, ?_, fun q i d hq hd => ?_, fun q => ?_⟩
  · have hown := hresponses p
    rw [if_pos rfl] at hown
    rw [State.settle_responses_append hown hb, List.getLast?_concat]
    rfl
  · refine State.mem_settle_responses ?_ rfl
    rw [hresponses q]
    have hd' := (congrArg (List.find? _) (State.marked_deferred s p q)).trans hd
    exact List.mem_append_left _ (State.endProposal_responses (s := s.marked p) told r j o hq hd')
  · refine State.settle_queue_posted hs nofun (hqueue q) ?_ ?_ ?_
    · exact State.endAndAnswer_same _ p kind id b x told r j o (·.count.serial) (fun _ _ _ => rfl) (fun _ _ _ => rfl)
        fun _ _ => rfl
    · exact State.endAndAnswer_same _ p kind id b x told r j o (·.sync) (fun _ _ _ => rfl) (fun _ _ _ => rfl) fun _ _ => rfl
    · exact State.endAndAnswer_same _ p kind id b x told r j o (·.time) (fun _ _ _ => rfl) (fun _ _ _ => rfl) fun _ _ => rfl

/-! ### PLAN_VOTE (R121 to R123) -/

/-- A vote that joins the accepted set completes the agreement when the sets are equal (R122). -/
theorem withVote_eq {x : Proposal} (hv : x.state = .voting) (p : PortId) : x.withVote p = { x with
    accepted := withPort x.accepted p
    state := if withPort x.accepted p = x.required then .agreed else .voting } := by
  simp only [Proposal.withVote, Proposal.decided, hv]
  split <;> rfl

namespace State

section
variable {s : State} {p : PortId} (id : Byte) {n : BitVec 16} {decision : Byte}

theorem planVote_badValue (h1 : decision ≠ 1) (h2 : decision ≠ 2) :
    s.planVote p id n decision = s.respond p kindPlanVote id .badValue (.vote n none) := if_pos ⟨h1, h2⟩

variable (hd : decision = 1 ∨ decision = 2)
include hd

/-- A decision that is one of the codes goes on to the proposal. -/
theorem decision_coded : ¬(decision ≠ 1 ∧ decision ≠ 2) := fun h => hd.elim h.1 h.2

theorem planVote_stale (h : ∀ x, s.plan.proposal = some x → x.number ≠ n) :
    s.planVote p id n decision = s.respond p kindPlanVote id .staleVote (.vote n none) := by
  unfold planVote
  rw [if_neg (decision_coded hd)]
  split
  · rfl
  · next x hx => exact if_pos (h x hx)

variable {x : Proposal} (hx : s.plan.proposal = some x) (hn : x.number = n)
include hx hn

theorem planVote_notVoter (hr : x.required.getLsbD p.val = false) :
    s.planVote p id n decision = s.respond p kindPlanVote id .notVoter (.vote n none) := by
  unfold planVote
  rw [if_neg (decision_coded hd), hx]
  dsimp only
  rw [if_neg (not_not.mpr hn), hr]
  rfl

variable (hr : x.required.getLsbD p.val = true)
include hr

/-- The checks that are left for a required voter. -/
theorem planVote_voter : s.planVote p id n decision =
    if x.state = .agreed then s.answerVote p id .alreadyAgreed n none
    else if x.accepted.getLsbD p.val then s.answerVote p id .alreadyVoted n none
    else if decision = 1 then s.acceptVote p id x
    else s.rejectVote p id x := by
  unfold planVote
  rw [if_neg (decision_coded hd), hx]
  dsimp only
  rw [if_neg (not_not.mpr hn), hr]
  rfl

theorem planVote_agreed (ha : x.state = .agreed) :
    s.planVote p id n decision = s.respond p kindPlanVote id .alreadyAgreed (.vote n none) :=
  (planVote_voter id hd hx hn hr).trans (if_pos ha)

variable (hv : x.state = .voting)
include hv

theorem planVote_voted (ha : x.accepted.getLsbD p.val = true) :
    s.planVote p id n decision = s.respond p kindPlanVote id .alreadyVoted (.vote n none) := by
  rw [planVote_voter id hd hx hn hr, if_neg (hv ▸ nofun)]
  exact if_pos ha

/-- A vote that passes the checks is taken by its decision. -/
theorem planVote_passes (ha : x.accepted.getLsbD p.val = false) :
    s.planVote p id n decision = if decision = 1 then s.acceptVote p id x else s.rejectVote p id x := by
  rw [planVote_voter id hd hx hn hr, if_neg (hv ▸ nofun)]
  exact if_neg (ha ▸ nofun)

end
end State

/-- Settles O45: the refusals check by check, an ACCEPT and a REJECT. -/
theorem planVoteAcceptsOrRejects : Obligations.PlanVoteAcceptsOrRejects := by
  intro s p id n h
  refine ⟨fun decision h1 h2 => ?_, fun decision r hd hr => ?_, fun x hx hn hreq hv hacc => ⟨?_, ?_⟩⟩
  · exact answer_take_fixed h kindPlanVote id _ (State.planVote_badValue (s := s.marked p) id h1 h2) rfl
  · refine answer_take_fixed h kindPlanVote id (State.planVote p id n decision) ?_ rfl
    rcases hr with ⟨rfl, hs⟩ | ⟨x, hx, hn, ⟨rfl, hreq⟩ | ⟨hreq, ⟨rfl, ha⟩ | ⟨rfl, hv, hacc⟩⟩⟩
    · exact State.planVote_stale (s := s.marked p) id hd hs
    · exact State.planVote_notVoter (s := s.marked p) id hd hx hn hreq
    · exact State.planVote_agreed (s := s.marked p) id hd hx hn hreq ha
    · exact State.planVote_voted (s := s.marked p) id hd hx hn hreq hv hacc
  · rintro accepted st rfl rfl
    refine answer_take_effect h kindPlanVote id (State.planVote p id n 1) ?_
    rw [State.planVote_passes (s := s.marked p) id (Or.inl rfl) hx hn hreq hv hacc, if_pos rfl, State.acceptVote,
      withVote_eq hv, hn]
    rfl
  · have hended := endAndAnswer_endsProposal h.2.2 p kindPlanVote id (b := .vote n none) rfl x (withoutPort x.required p)
      .rejected (some p) .rejected
    have hexec : exec (.planVote p id n 2) s = .next ((s.marked p).endAndAnswer p kindPlanVote id (.vote n none) x
        (withoutPort x.required p) .rejected (some p) .rejected).settle := by
      show answer ((s.linkCount p).take p kindPlanVote id true _) = _
      rw [answer_take_open h, State.planVote_passes (s := s.marked p) id (Or.inr rfl) hx hn hreq hv hacc,
        if_neg (by decide), State.rejectVote, hn]
      rfl
    subst hn
    refine ⟨_, hexec, hended.plan, hended.own, hended.proposer, fun q => ?_⟩
    rw [hended.outcome, getLsbD_withoutPort]
    simp only [Bool.and_eq_true, decide_eq_true_eq]

/-! ### PLAN_WITHDRAW (R124) -/

namespace State

section
variable {s : State} {p : PortId} (id : Byte)

theorem planWithdraw_notOwner (h : ∀ x, s.plan.proposal = some x → x.proposer ≠ p) :
    s.planWithdraw p id = s.respond p kindPlanWithdraw id .notOwner (.withdraw 0) := by
  unfold planWithdraw
  split
  · rfl
  · next x hx => exact if_pos (h x hx)

variable {x : Proposal} (hx : s.plan.proposal = some x) (hp : x.proposer = p)
include hx hp

theorem planWithdraw_agreed (ha : x.state = .agreed) :
    s.planWithdraw p id = s.respond p kindPlanWithdraw id .alreadyAgreed (.withdraw x.number) := by
  simp [planWithdraw, hx, hp, ha, answerWithdraw]

theorem planWithdraw_voting (hv : x.state = .voting) : s.planWithdraw p id =
    s.endAndAnswer p kindPlanWithdraw id (.withdraw x.number) x x.required .withdrawn none .withdrawn := by
  simp [planWithdraw, hx, hp, hv, answerWithdraw, endAndAnswer]

end
end State

/-- Settles O46: the refusals, and a withdrawal that ends the proposal. -/
theorem planWithdrawRemovesTheProposal : Obligations.PlanWithdrawRemovesTheProposal := by
  intro s p id h
  refine ⟨fun hn => ?_, fun x hx hp => ⟨fun ha => ?_, fun hv => ?_⟩⟩
  · exact answer_take_fixed h kindPlanWithdraw id _ (State.planWithdraw_notOwner (s := s.marked p) id hn) rfl
  · exact answer_take_fixed h kindPlanWithdraw id _ (State.planWithdraw_agreed (s := s.marked p) id hx hp ha) rfl
  · have hended := endAndAnswer_endsProposal h.2.2 p kindPlanWithdraw id (b := .withdraw x.number) rfl x x.required
      .withdrawn none .withdrawn
    have hexec : exec (.planWithdraw p id) s = .next ((s.marked p).endAndAnswer p kindPlanWithdraw id (.withdraw x.number) x
        x.required .withdrawn none .withdrawn).settle := by
      show answer ((s.linkCount p).take p kindPlanWithdraw id true _) = _
      rw [answer_take_open h, State.planWithdraw_voting (s := s.marked p) id hx hp hv]
    exact ⟨_, hexec, hended.plan, hended.own, hended.proposer, hended.outcome⟩

end Sys2Proof.Machine
end

section
/-! PROOFS. Request messages (R135, R140 to R142, R169 to R171): numbers and their bytes, a message and its request, and the MOSI
bits of a message. -/

namespace Sys2Proof.Machine

/-! ### Numbers and their bytes (R169) -/

theorem extract_append_low {n : Nat} (x : BitVec n) (b : Byte) : (x ++ b).extractLsb' 0 8 = b :=
  BitVec.extractLsb'_append_eq_right

theorem extract_append_high (i : Nat) {n : Nat} (x : BitVec n) (b : Byte) :
    (x ++ b).extractLsb' (8 + i) 8 = x.extractLsb' i 8 := by
  rw [BitVec.extractLsb'_append_eq_of_le (Nat.le_add_right 8 i), Nat.add_sub_cancel_left]

theorem be2_append (x b : Byte) : be2 (x ++ b) = [x, b] := by
  show [(x ++ b).extractLsb' (8 + 0) 8, (x ++ b).extractLsb' 0 8] = _
  rw [extract_append_high, extract_append_low, BitVec.extractLsb'_eq_self]

theorem be3_snoc (x : BitVec 16) (b : Byte) : be3 (x ++ b) = be2 x ++ [b] := by
  show [(x ++ b).extractLsb' (8 + 8) 8, (x ++ b).extractLsb' (8 + 0) 8, (x ++ b).extractLsb' 0 8] = _
  rw [extract_append_high, extract_append_high, extract_append_low]
  rfl

theorem be4_snoc (x : BitVec 24) (b : Byte) : be4 (x ++ b) = be3 x ++ [b] := by
  show [(x ++ b).extractLsb' (8 + 16) 8, (x ++ b).extractLsb' (8 + 8) 8, (x ++ b).extractLsb' (8 + 0) 8,
    (x ++ b).extractLsb' 0 8] = _
  rw [extract_append_high, extract_append_high, extract_append_high, extract_append_low]
  rfl

theorem be6_snoc (x : BitVec 32) (a b : Byte) : be6 (x ++ a ++ b) = be4 x ++ [a, b] := by
  show [(x ++ a ++ b).extractLsb' (8 + (8 + 24)) 8, (x ++ a ++ b).extractLsb' (8 + (8 + 16)) 8,
    (x ++ a ++ b).extractLsb' (8 + (8 + 8)) 8, (x ++ a ++ b).extractLsb' (8 + (8 + 0)) 8,
    (x ++ a ++ b).extractLsb' (8 + 0) 8, (x ++ a ++ b).extractLsb' 0 8] = _
  simp only [extract_append_high, extract_append_low]
  rfl

theorem be3_append (a b c : Byte) : be3 (a ++ b ++ c) = [a, b, c] :=
  (be3_snoc (a ++ b) c).trans (congrArg (· ++ [c]) (be2_append a b))

theorem be4_append (a b c d : Byte) : be4 (a ++ b ++ c ++ d) = [a, b, c, d] :=
  (be4_snoc (a ++ b ++ c) d).trans (congrArg (· ++ [d]) (be3_append a b c))

theorem be6_append (a b c d e f : Byte) : be6 (a ++ b ++ c ++ d ++ e ++ f) = [a, b, c, d, e, f] :=
  (be6_snoc (a ++ b ++ c ++ d) e f).trans (congrArg (· ++ [e, f]) (be4_append a b c d))

theorem append_be2 (w : BitVec 16) : w.extractLsb' 8 8 ++ w.extractLsb' 0 8 = w := by
  rw [BitVec.extractLsb'_append_extractLsb'_eq_extractLsb' (by rfl)]
  exact BitVec.extractLsb'_eq_self

theorem append_be3 (w : BitVec 24) : w.extractLsb' 16 8 ++ w.extractLsb' 8 8 ++ w.extractLsb' 0 8 = w := by
  rw [BitVec.extractLsb'_append_extractLsb'_eq_extractLsb' (by rfl), BitVec.extractLsb'_append_extractLsb'_eq_extractLsb' (by rfl)]
  exact BitVec.extractLsb'_eq_self

theorem append_be4 (w : BitVec 32) :
    w.extractLsb' 24 8 ++ w.extractLsb' 16 8 ++ w.extractLsb' 8 8 ++ w.extractLsb' 0 8 = w := by
  rw [BitVec.extractLsb'_append_extractLsb'_eq_extractLsb' (by rfl), BitVec.extractLsb'_append_extractLsb'_eq_extractLsb' (by rfl),
    BitVec.extractLsb'_append_extractLsb'_eq_extractLsb' (by rfl)]
  exact BitVec.extractLsb'_eq_self

theorem append_be6 (w : BitVec 48) : w.extractLsb' 40 8 ++ w.extractLsb' 32 8 ++ w.extractLsb' 24 8 ++
    w.extractLsb' 16 8 ++ w.extractLsb' 8 8 ++ w.extractLsb' 0 8 = w := by
  rw [BitVec.extractLsb'_append_extractLsb'_eq_extractLsb' (by rfl), BitVec.extractLsb'_append_extractLsb'_eq_extractLsb' (by rfl),
    BitVec.extractLsb'_append_extractLsb'_eq_extractLsb' (by rfl), BitVec.extractLsb'_append_extractLsb'_eq_extractLsb' (by rfl),
    BitVec.extractLsb'_append_extractLsb'_eq_extractLsb' (by rfl)]
  exact BitVec.extractLsb'_eq_self

/-! ### A request and its kind, id and body (R141, R171) -/

section
variable {p : PortId} {kind id : Byte} {body : List Byte} {c : Instr}

/-- A kind outside the table asks for nothing that the part knows (R144). -/
theorem requestOf_unknown (h : kind ∉ knownKinds) : requestOf p kind id body = some (.unknownKind p kind id body) := by
  unfold requestOf
  repeat rw [if_neg (by rintro rfl; exact h (by decide))]

/-- What a kind, id and body ask for is a request with that kind, id and body. -/
theorem requestOf_some (h : requestOf p kind id body = some c) :
    requestFields c = some (p, kind, id, body) ∧ (body.length ≤ 28 → c.wf = true) := by
  -- Kind by kind along the table; what is left is a kind outside it.
  unfold requestOf at h
  repeat' (rw [ite_eq_iff] at h; rcases h with ⟨rfl, h⟩ | ⟨_, h⟩)
  case inr =>
    cases h
    have hk : kind ∉ knownKinds := by
      simp only [knownKinds, List.mem_cons, List.not_mem_nil, or_false, not_or]
      repeat' apply And.intro
      all_goals assumption
    refine ⟨rfl, fun hb => ?_⟩
    simp [Instr.wf, hk, Config.maxRequestBody, hb]
  all_goals
    split at h
    · cases h
      refine ⟨?_, fun _ => rfl⟩
      simp only [requestFields, PlanFields.bytes, be2_append, be3_append, be4_append, be6_append, List.cons_append,
        List.nil_append]
    · cases h

/-- A well-formed request is read from its kind, id and body. -/
theorem requestOf_fields (hw : c.wf = true) (hf : requestFields c = some (p, kind, id, body)) :
    requestOf p kind id body = some c ∧ body.length ≤ 28 := by
  cases c
  case unknownKind =>
    cases hf
    simp only [Instr.wf, Bool.and_eq_true, Bool.not_eq_true', List.contains_eq_mem, decide_eq_false_iff_not,
      decide_eq_true_eq] at hw
    exact ⟨requestOf_unknown hw.1, hw.2⟩
  all_goals cases hf
  all_goals
    refine ⟨congrArg some ?_, Nat.le_of_ble_eq_true rfl⟩
    simp only [append_be2, append_be3, append_be4, append_be6]

/-! ### A message (R140, R141, R170) -/

theorem frameBytes_append (kind id : Byte) (body extra : List Byte) : frameBytes kind id body ++ extra =
    kind :: id :: BitVec.ofNat 8 body.length ::
      (body ++ crc8 (kind :: id :: BitVec.ofNat 8 body.length :: body) :: extra) := by
  simp [frameBytes]

/-- A message asks for what its kind, id and body ask for, whatever follows it. -/
theorem parseFrame_message (hb : body.length ≤ 28) (extra : List Byte) :
    parseFrame p (frameBytes kind id body ++ extra) = requestOf p kind id body := by
  have hlen : (BitVec.ofNat 8 body.length).toNat = body.length :=
    (BitVec.toNat_ofNat _ _).trans (Nat.mod_eq_of_lt (by omega))
  rw [frameBytes_append]
  simp only [parseFrame, hlen, List.take_left']
  rw [if_neg (show ¬Config.maxRequestBody < _ from Nat.not_lt.mpr hb), if_neg (by simp), if_pos (by simp)]

/-- What passes framing is a message and what follows it. -/
theorem parseFrame_some {bytes : List Byte} (h : parseFrame p bytes = some c) : ∃ kind id body extra,
    bytes = frameBytes kind id body ++ extra ∧ body.length ≤ 28 ∧ requestOf p kind id body = some c := by
  unfold parseFrame at h
  split at h
  · next kind id len rest =>
    rw [Option.ite_none_left_eq_some, Option.ite_none_left_eq_some, Option.ite_none_right_eq_some] at h
    obtain ⟨hmax, hlong, hcrc, hreq⟩ := h
    rw [Nat.not_lt] at hmax hlong
    obtain ⟨hlt, hget⟩ := List.getElem?_eq_some_iff.mp hcrc
    have hlen : (rest.take len.toNat).length = len.toNat := List.length_take_of_le (Nat.le_of_lt hlt)
    refine ⟨kind, id, rest.take len.toNat, rest.drop (len.toNat + 1), ?_, hlen.le.trans hmax, hreq⟩
    rw [frameBytes_append, hlen, BitVec.ofNat_toNat, BitVec.setWidth_eq, ← hget, ← List.drop_eq_getElem_cons,
      List.take_append_drop]
  · cases h

end

/-! ### The MOSI bits of a message (R135) -/

theorem bytesOfBits_bitsOfBytes : ∀ bytes : List Byte, bytesOfBits (bitsOfBytes bytes) = bytes
  | [] => rfl
  | b :: rest => congrArg₂ List.cons (State.ofBoolListBE_getMsbD b) (bytesOfBits_bitsOfBytes rest)

/-- Settles O49: a message and its request determine each other. -/
theorem requestMessagesRoundTrip : Obligations.RequestMessagesRoundTrip := by
  refine ⟨fun p bytes c h => ?_, fun c p kind id body hw hf extra => ?_⟩
  · obtain ⟨kind, id, body, extra, hbytes, hlen, hreq⟩ := parseFrame_some h
    obtain ⟨hfields, hwf⟩ := requestOf_some hreq
    exact ⟨hwf hlen, kind, id, body, extra, hfields, hbytes⟩
  · obtain ⟨hreq, hlen⟩ := requestOf_fields hw hf
    rw [bytesOfBits_bitsOfBytes, parseFrame_message hlen, hreq]

/-! ### NONE (R142) -/

theorem bitsOfBytes_zeros : ∀ n : Nat, bitsOfBytes (List.replicate n 0) = List.replicate (8 * n) false
  | 0 => rfl
  | n + 1 => congrArg (List.replicate 8 false ++ ·) (bitsOfBytes_zeros n)

theorem crc8_zeros : crc8 [0, 0, 0] = 0 := by
  have hzero : crcByte 0 0 = 0 := by decide
  simp only [crc8, List.foldl_cons, List.foldl_nil, hzero]

theorem frameBytes_none : frameBytes kindNone 0 [] = List.replicate 4 0 :=
  congrArg (fun crc => [0, 0, 0, crc]) crc8_zeros

/-- Settles O50: NONE changes nothing but the mark of the count, and four zero bytes are its message. -/
theorem noneAsksForNothing : Obligations.NoneAsksForNothing := by
  refine ⟨fun s p id => rfl, fun s p id hs ⟨hh, hr, he⟩ => ?_, crc8_zeros, fun p n hn => ?_⟩
  · show answer (s.linkCount p) = _
    rw [State.linkCount_free hh hr he]
    exact congrArg Host.Outcome.next (State.settled_marked hs p)
  · have hmessage : List.replicate n (0 : Byte) = frameBytes kindNone 0 [] ++ List.replicate (n - 4) 0 := by
      rw [frameBytes_none, List.replicate_append_replicate, Nat.add_sub_cancel' hn]
    rw [← bitsOfBytes_zeros, bytesOfBits_bitsOfBytes, hmessage, parseFrame_message (Nat.zero_le _)]
    rfl

end Sys2Proof.Machine
end

section
/-! PROOFS. The request link (R134 to R144, R148, R149, R151): held ports, the edges of CS_n, the gate, and OPEN. -/

namespace Sys2Proof.Machine

/-! ### Changes of one link on a settled state -/

/-- An operation whose result is settled already is answered as it stands. -/
theorem answer_settled {s : State} (h : s.settled) : answer s = .next s := congrArg Host.Outcome.next h

/-- A change of a link that no report shows, on a settled state. -/
theorem answer_modPort {s : State} (hs : s.settled) (p : PortId) (f : Port → Port)
    (ho : (f (s.port p)).isOpen = (s.port p).isOpen) (hn : (f (s.port p)).session = (s.port p).session)
    (hr : (f (s.port p)).responses.Sublist (s.port p).responses) : answer (s.modPort p f) = .next (s.modPort p f) :=
  answer_settled (State.settled_modPort hs p f ho hn fun r hm => State.settled_response hs p r (hr.subset hm))

/-! ### The gate (R142 to R144) -/

section
variable {s : State} {p : PortId} {c : Instr} {kind id : Byte} {body : List Byte}

/-- A request other than NONE passes through the gate, which lets an unknown kind, OPEN and STATUS_READ through without a
session. -/
theorem serve_eq_take (hc : requestFields c = some (p, kind, id, body)) (hk : kind ≠ 0x00) : ∃ needsSession op,
    (∀ s : State, s.serve c = s.take p kind id needsSession op) ∧
      (needsSession = false → c = .unknownKind p kind id body ∨ kind = 0x01 ∨ kind = 0x03) := by
  cases c <;> cases hc
  case noneRequest => exact absurd rfl hk
  case unknownKind => exact ⟨false, _, fun _ => rfl, fun _ => Or.inl rfl⟩
  case openSession => exact ⟨false, _, fun _ => rfl, fun _ => Or.inr (Or.inl rfl)⟩
  case statusRead => exact ⟨false, _, fun _ => rfl, fun _ => Or.inr (Or.inr rfl)⟩
  all_goals exact ⟨true, _, fun _ => rfl, nofun⟩

/-- A port that is held takes no request (R134, R151). -/
theorem serve_held (hc : requestFields c = some (p, kind, id, body)) (h : s.handles p = false) : s.serve c = s := by
  cases c <;> cases hc
  case noneRequest => rfl
  all_goals exact State.take_unhandled _ _ _ _ h

end

/-- Settles O51: the pending limit first, then the kind, then the session. -/
theorem gateRefusesAtLimitUnknownAndClosed : Obligations.GateRefusesAtLimitUnknownAndClosed := by
  intro s p c kind id body hs ⟨hh, hr, he⟩ hc hk
  have hexec : exec c s = answer ((s.marked p).serve c) := by
    rw [State.exec_request hc, State.linkCount_free hh hr he]
  refine ⟨fun hfull => ?_, fun hroom hunknown => ?_, fun hroom hclosed hunknown hopen hstatus => ?_⟩
  · obtain ⟨n, op, hserve, _⟩ := serve_eq_take hc hk
    rw [hexec, hserve, State.take_full _ _ _ _ ((State.marked_handles s p p).trans hh)
      ((State.marked_pendingCount s p p).symm ▸ hfull)]
    exact answer_modPort (State.settled_marked hs p) p _ rfl rfl (List.Sublist.refl _)
  · have hcan : s.canTake p := ⟨hh, hr, he, hroom⟩
    rw [hexec, hunknown]
    show answer ((s.marked p).take p kind id false (State.unknownKind p kind id)) = _
    rw [State.take_any kind id _ hcan]
    exact congrArg Host.Outcome.next (settle_respond_marked hs p kind id .unknownKind rfl)
  · have hcan : s.canTake p := ⟨hh, hr, he, hroom⟩
    obtain ⟨n, op, hserve, hfree⟩ := serve_eq_take hc hk
    have hneeds : n = true := by
      by_contra h
      exact (hfree (Bool.not_eq_true n ▸ h)).elim hunknown (·.elim hopen hstatus)
    rw [hexec, hserve, hneeds, State.take_closed kind id op hcan hclosed]
    exact congrArg Host.Outcome.next (settle_answered_fixed hs p kind id .noSession rfl)

/-! ### A port that is held, and ignored transactions (R134, R135, R151) -/

namespace State

section
variable {s : State} {p : PortId}

theorem linkCount_held (h : s.handles p = false) : s.linkCount p = s := by simp [linkCount, h]

theorem selectFalls_held (h : s.handles p = false) : s.selectFalls p = s.modPort p fun q => { q with csLow := true } := by
  by_cases hl : (s.port p).csLow = true
  · rw [modPort_eq_self s p _ (by rw [← hl])]
    simp [selectFalls, hl]
  · simp [selectFalls, hl, h]

theorem selectRises_held (h : s.handles p = false) (hc : (s.port p).chosen = none) (mosi : List Bool) :
    s.selectRises p mosi = s.modPort p fun q => { q with csLow := false } := by
  by_cases hl : (s.port p).csLow = true
  · rw [selectRises_ignored mosi hl hc, linkCount_held h]
  · rw [Bool.not_eq_true] at hl
    rw [modPort_eq_self s p _ (by rw [← hl])]
    simp [selectRises, hl]

end
end State

/-- Settles O10: a held port's commands, a transaction whose fall was not handled, and when MISO_n is not driven. -/
theorem heldPortIgnoresTransactions : Obligations.HeldPortIgnoresTransactions := by
  refine ⟨fun s p hs hh => ⟨fun c k id body hc => ?_, ?_, fun hc mosi => ?_⟩, fun s p mosi hs ⟨hh, hr, he⟩ hl hc => ?_,
    fun s p h => ?_⟩
  · rw [State.exec_request hc, State.linkCount_held hh, serve_held hc hh, answer_settled hs]
  · show answer (s.selectFalls p) = _
    rw [State.selectFalls_held hh]
    exact answer_modPort hs p _ rfl rfl (List.Sublist.refl _)
  · show answer (s.selectRises p mosi) = _
    rw [State.selectRises_held hh hc]
    exact answer_modPort hs p _ rfl rfl (List.Sublist.refl _)
  · show answer (s.selectRises p mosi) = _
    rw [State.selectRises_ignored mosi hl hc, State.linkCount_free hh hr he, State.marked, State.useCount,
      State.modPort_modPort]
    exact answer_modPort hs p _ rfl rfl (List.Sublist.refl _)
  · rcases h with h | h | h | h
    · exact State.misoUndriven_held (by simp [State.handles, h])
    · exact State.misoUndriven_held (by simp [State.handles, h])
    · exact State.misoUndriven_high h
    · exact State.misoUndriven_ignored h

/-! ### The fall of CS_n (R136, R148) -/

/-- The mark of the count changes nothing that a chosen response carries. -/
theorem marked_choose (s : State) (p : PortId) : (s.marked p).choose p = s.choose p := by
  have hport : (s.marked p).port p = { s.port p with lastEdge := some s.count.serial } :=
    (State.marked_port s p p).trans (if_pos rfl)
  unfold State.choose State.headerFlags
  rw [State.marked_isOpen, State.marked_queue, hport]

/-- The response chosen is the oldest queued one, or EMPTY. -/
theorem choose_eq {s : State} {p : PortId} {c : Chosen} {flags : Byte} (hflags : flags = s.headerFlags p)
    (h : (s.port p).responses = [] ∧
        c = ⟨true, (s.port p).overrun, (s.port p).badFrame, responseBytes 0x00 0 .ok flags 0 []⟩ ∨
      ∃ r rest, (s.port p).responses = r :: rest ∧
        c = ⟨false, (s.port p).overrun, (s.port p).badFrame,
          responseBytes r.kind r.id r.result flags rest.length r.body.bytes⟩) : s.choose p = c := by
  unfold State.choose
  rcases h with ⟨hr, rfl⟩ | ⟨r, rest, hr, rfl⟩
  · rw [hr, hflags]; rfl
  · rw [hr, hflags]

/-- Settles O47: the response is chosen at the marked count, and MISO_n carries its bytes bit by bit. -/
theorem selectFallChoosesTheResponse : Obligations.SelectFallChoosesTheResponse := by
  intro s p hs ⟨hh, hr, he⟩ hl c flags hflags hchosen
  have hfall : s.selectFalls p =
      s.modPort p fun q => { q with lastEdge := some s.count.serial, csLow := true, chosen := some c } := by
    rw [State.selectFalls_high hl hh, State.linkCount_free hh hr he, State.putOut, marked_choose, choose_eq hflags hchosen,
      State.marked, State.useCount, State.modPort_modPort]
  refine ⟨_, ?_, rfl, fun n b hb => ?_⟩
  · show answer (s.selectFalls p) = _
    rw [hfall]
    exact answer_modPort hs p _ rfl rfl (List.Sublist.refl _)
  · generalize ht : (s.modPort p fun q => { q with lastEdge := some s.count.serial, csLow := true, chosen := some c }) = t
    have hport : t.port p = { s.port p with lastEdge := some s.count.serial, csLow := true, chosen := some c } :=
      ht ▸ State.port_modPort_same s p _
    have hhandles : t.handles p = true := by
      rw [← hh, State.handles, hport, ← ht]
      rfl
    have hlow : (t.port p).csLow = true := by rw [hport]
    have hc : (t.port p).chosen = some c := by rw [hport]
    have hbyte : c.byteAt n = b := (State.byteAt_eq c n).trans hb.symm
    have hbit : ∀ i, i < 8 → t.misoBit p (8 * n + i) = some (b.getMsbD i) := fun i hi => by
      rw [State.misoBit_chosen hhandles hlow hc, State.bitAt_eq c n hi, hbyte]
    refine ⟨?_, hbit 0 (by decide), hbit 1 (by decide), hbit 2 (by decide), hbit 3 (by decide), hbit 4 (by decide),
      hbit 5 (by decide), hbit 6 (by decide), hbit 7 (by decide)⟩
    rw [State.miso_chosen hhandles hlow hc, hbyte]

/-! ### The rise of CS_n (R138 to R142) -/

/-- A link after the settlement of a transfer of `n` complete bytes, field by field. -/
theorem finish_eq (c : Chosen) (mosi : List Bool) (q : Port) : q.finish c mosi = { q with
    csLow := false
    chosen := none
    misoSent := misoBits c mosi.length
    responses := if c.bytes.length ≤ (bytesOfBits mosi).length ∧ c.empty = false then q.responses.tail else q.responses
    overrun := if c.bytes.length ≤ (bytesOfBits mosi).length ∧ c.overrun = true then false else q.overrun
    badFrame := if c.bytes.length ≤ (bytesOfBits mosi).length ∧ c.badFrame = true then false else q.badFrame } := by
  unfold Port.finish Port.settleTransfer
  by_cases hfull : c.bytes.length ≤ (bytesOfBits mosi).length
  · have hflag : ∀ flag carried : Bool, (flag && !carried) = if carried = true then false else flag := by decide
    have hqueue : (if c.empty = true then q.responses else q.responses.tail) =
        if c.empty = false then q.responses.tail else q.responses := by
      cases c.empty <;> rfl
    simp only [hfull, if_true, true_and, hflag, hqueue]
  · simp [hfull]

theorem finish_responses_sublist (c : Chosen) (mosi : List Bool) (q : Port) :
    (q.finish c mosi).responses.Sublist q.responses := by
  rw [finish_eq]
  dsimp only
  split
  · exact List.tail_sublist _
  · exact List.Sublist.refl _

/-- What MISO_n carries in `n` bytes: the chosen response, and 0xFF after it. -/
theorem map_byteAt_range (c : Chosen) (n : Nat) :
    (List.range n).map c.byteAt = c.bytes.take n ++ List.replicate (n - c.bytes.length) 0xFF := by
  refine List.ext_getElem (by simp; omega) fun i h1 h2 => ?_
  rw [List.getElem_map, List.getElem_range, State.byteAt_eq]
  by_cases hi : i < c.bytes.length
  · rw [dif_pos hi, List.getElem_append_left (by simp at h1 ⊢; omega), List.getElem_take]
  · rw [dif_neg hi, List.getElem_append_right (by simp; omega), List.getElem_replicate]

/-- Settles O48: the transfer is settled at the marked count, and the request is taken in the same count. -/
theorem selectRiseSettlesThenTakes : Obligations.SelectRiseSettlesThenTakes := by
  intro s p mosi c n u hs ⟨hh, hr, he⟩ hl hc hn hu
  subst hn
  have hfinish : u = s.modPort p (Port.finish c mosi) := hu.trans (State.modPort_congr s p (finish_eq c mosi _).symm)
  have hport : u.port p = (s.port p).finish c mosi := hfinish ▸ State.port_modPort_same s p _
  have hset : u.settled := hfinish ▸ State.settled_modPort hs p _ (by rw [finish_eq]) (by rw [finish_eq])
    fun r hm => State.settled_response hs p r ((finish_responses_sublist c mosi _).subset hm)
  have hcount : u.count = s.count := by rw [hfinish, State.modPort_count]
  have hhandles : u.handles p = true := by
    rw [← hh, State.handles, hport, finish_eq, hfinish]
    rfl
  have hlink : u.linkCount p = u.marked p :=
    State.linkCount_free hhandles (by rw [hcount, hr]) (by rw [hport, finish_eq, hcount]; exact he)
  have hexec : exec (.transactionEnd p mosi) s = answer ((u.marked p).receive p (bytesOfBits mosi)) := by
    have hmark : (s.marked p).modPort p (Port.finish c mosi) = u.marked p := by
      rw [hfinish, State.marked, State.marked, State.useCount, State.useCount, State.modPort_modPort,
        State.modPort_modPort]
      exact State.modPort_congr s p (by rw [finish_eq, finish_eq]; rfl)
    show answer (s.selectRises p mosi) = _
    rw [State.selectRises_low hl, hc, State.linkCount_free hh hr he]
    exact congrArg (fun v => answer (State.receive p (bytesOfBits mosi) v)) hmark
  refine ⟨State.misoUndriven_high (by rw [hport, finish_eq]), ?_, fun hzero => ?_, fun hsome hnone => ?_, fun i hi => ?_⟩
  · rw [hport, finish_eq, State.bytesOfBits_length, ← map_byteAt_range]
    exact State.bytesOfBits_misoBits c mosi.length
  · rw [hexec, State.receive, List.length_eq_zero_iff.mp hzero]
    exact answer_settled (State.settled_marked hset p)
  · rw [hexec, State.receive, if_neg (by simpa using hsome), hnone]
    exact answer_modPort (State.settled_marked hset p) p _ rfl rfl (List.Sublist.refl _)
  · obtain ⟨_, kind, id, body, _, hfields, _⟩ := requestMessagesRoundTrip.1 p _ i hi
    have hsome : (bytesOfBits mosi).isEmpty = false := by
      cases hb : bytesOfBits mosi with
      | nil => rw [hb] at hi; cases hi
      | cons => rfl
    rw [hexec, State.receive, hsome, hi, State.exec_request hfields, hlink]
    rfl

/-! ### OPEN (R149) -/

section
variable {s : State} {p : PortId}

theorem openSession_open (id : Byte) (enable : BitVec 16) (x : LineSet) (ho : s.isOpen p = true) :
    s.openSession p id enable x = s.respond p kindOpen id .alreadyOpen (s.openReport p) := by
  simp only [State.openSession, ho, if_true]

theorem openSession_badValue (id : Byte) {enable : BitVec 16} (x : LineSet) (ho : s.isOpen p = false)
    (he : enable.extractLsb' 8 8 ≠ 0) :
    s.openSession p id enable x = s.respond p kindOpen id .badValue (s.openReport p) := by
  simp only [State.openSession, ho, Bool.false_eq_true, if_false, if_pos he]

theorem openSession_accepted (id : Byte) {enable : BitVec 16} (x : LineSet) (ho : s.isOpen p = false)
    (he : enable.extractLsb' 8 8 = 0) : s.openSession p id enable x =
      (s.acceptOpen p enable x).respond p kindOpen id .ok (.opened p ((s.port p).session + 1) s.plan.number s.sync.state) := by
  have hreport : (s.acceptOpen p enable x).openReport p = .opened p ((s.port p).session + 1) s.plan.number s.sync.state := by
    have hport := State.port_modPort_same s p fun q => { q with isOpen := true, session := q.session + 1 }
    exact congrArg (fun q : Port => Body.opened p q.session s.plan.number s.sync.state) hport
  simp only [State.openSession, ho, Bool.false_eq_true, if_false, if_neg (not_not.mpr he), hreport]

/-- An OPEN that is accepted at the marked count is accepted, and the answer marks the count. -/
theorem marked_acceptOpen_respond (enable : BitVec 16) (x : LineSet) (k i : Byte) (r : Result) (b : Body) :
    ((s.marked p).acceptOpen p enable x).respond p k i r b = (s.acceptOpen p enable x).answered p k i r b := by
  have hlink : ∀ (u : State) f, (u.acceptOpen p enable x).modPort p f =
      (((u.modPort p fun q => { q with isOpen := true, session := q.session + 1 }).modPort p f).modQueue p fun q =>
        { q with enable := enable.extractLsb' 0 8 }).setSubs p x := fun _ _ => rfl
  unfold State.respond State.answered
  rw [hlink, hlink, State.marked, State.useCount]
  simp only [State.modPort_modPort]
  rfl

end

/-- Settles O53: an open port, an enable bit of no kind, and the session that starts. -/
theorem openStartsASession : Obligations.OpenStartsASession := by
  intro s p id enable x hcan hs
  have hexec : exec (.openSession p id enable x) s = .next ((s.marked p).openSession p id enable x).settle :=
    answer_take_any hcan kindOpen id (State.openSession p id enable x)
  have hrefused : ∀ r, ((s.marked p).respond p kindOpen id r ((s.marked p).openReport p)).settle =
      s.answered p kindOpen id r (s.openReport p) := fun r => by
    rw [State.marked_respond, State.settle_answered hs]
    rfl
  refine ⟨fun ho => ?_, fun ho he => ?_, fun ho he => ?_⟩
  · rw [hexec, openSession_open id enable x ((State.marked_isOpen s p p).trans ho), hrefused]
    rfl
  · rw [hexec, openSession_badValue id x ((State.marked_isOpen s p p).trans ho) he, hrefused]
    rfl
  · rw [hexec, openSession_accepted id x ((State.marked_isOpen s p p).trans ho) he, marked_acceptOpen_respond,
      State.marked_session]
    rfl

end Sys2Proof.Machine
end

section
/-! PROOFS. Port reset (R151), and a session end at the port's link, its queue, the queues of the other ports and the blocks it
does not reach (R68, R70, R130, R150 to R152, R167). -/

namespace Sys2Proof.Machine

namespace State

/-! ### Posts one after another -/

/-- Notifications posted to one port, one after another. -/
def posts (p : PortId) (bs : List NoteBody) (s : State) : State := bs.foldl (fun u b => u.post p b) s

theorem posts_append (s : State) (p : PortId) (as bs : List NoteBody) :
    s.posts p (as ++ bs) = (s.posts p as).posts p bs := List.foldl_append

theorem SameQueue.posts {p : PortId} {a b : State} (h : SameQueue p a b) (bs : List NoteBody) :
    SameQueue p (a.posts p bs) (b.posts p bs) := by
  induction bs generalizing a b with
  | nil => exact h
  | cons x xs ih => exact ih (h.post x)

theorem posts_isOpen (s : State) (p q : PortId) (bs : List NoteBody) : (s.posts p bs).isOpen q = s.isOpen q := by
  induction bs generalizing s with
  | nil => rfl
  | cons b bs ih => exact (ih (s.post p b)).trans (post_isOpen s q p b)

theorem posts_count (s : State) (p : PortId) (bs : List NoteBody) : (s.posts p bs).count = s.count := by
  induction bs generalizing s with
  | nil => rfl
  | cons b bs ih => exact (ih (s.post p b)).trans (post_count s p b)

theorem SameQueue.trans {p : PortId} {a b c : State} (h : SameQueue p a b) (h' : SameQueue p b c) : SameQueue p a c :=
  ⟨h.isOpen.trans h'.isOpen, h.queue.trans h'.queue, h.serial.trans h'.serial⟩

theorem sameQueue_posts {s t : State} {p : PortId} {bs : List NoteBody} (hopen : t.isOpen p = s.isOpen p)
    (hqueue : t.queue p = s.queueAfter p bs) (hserial : t.count.serial = s.count.serial) :
    SameQueue p t (s.posts p bs) :=
  ⟨hopen.trans (posts_isOpen s p p bs).symm, hqueue, by rw [hserial, posts_count]⟩

/-- Posts of other kinds than SYNC_CHANGE stay as they are when a settled state is settled again. -/
theorem posts_refreshed {s u : State} {p : PortId} {bs : List NoteBody} (hb : ∀ b ∈ bs, b.kind ≠ .syncChange)
    (hu : ∀ n ∈ (u.queue p).entries, n.refresh s = n) : ∀ n ∈ ((u.posts p bs).queue p).entries, n.refresh s = n := by
  induction bs generalizing u with
  | nil => exact hu
  | cons b bs ih =>
    exact ih (fun c hc => hb c (List.mem_cons_of_mem b hc)) (post_refreshed p p (hb b List.mem_cons_self) hu)

/-! ### The lines of the ending session (R68, R70) -/

/-- A line that the session end of `p` frees while port `q` subscribes to it as an input. -/
abbrev stopsFor (s : State) (p q : PortId) (k : LineId) : Prop :=
  s.freedFor p k ∧ (s.line k).mode = .input ∧ (s.subs q).getLsbD k.val = true

/-- The posts to port `q` of the session end of `p` at some lines (R68). -/
def stopped (s : State) (p q : PortId) (ks : List LineId) : List NoteBody :=
  (ks.filter fun k => decide (s.stopsFor p q k)).map .inputStopped

section
variable {s u : State} {p q : PortId}

theorem stopped_congr {t : State} {ks : List LineId} (hl : ∀ k ∈ ks, t.line k = s.line k) (hq : t.subs q = s.subs q) :
    t.stopped p q ks = s.stopped p q ks := by
  unfold stopped
  refine congrArg (List.map _) (List.filter_congr fun k hk => ?_)
  simp only [stopsFor, freedFor, hl k hk, hq]

/-- Leaving INPUT posts to the ports that subscribe to the line. -/
theorem leaveInput_queue (s : State) (k : LineId) (q : PortId) : (s.leaveInput k).queue q =
    if (s.line k).mode = .input ∧ (s.subs q).getLsbD k.val = true then (s.post q (.inputStopped k)).queue q
    else s.queue q := by
  unfold leaveInput
  by_cases hm : (s.line k).mode = .input
  · rw [if_pos hm]
    simp only [hm, true_and]
    exact stopInput_queue s k q
  · rw [if_neg hm, if_neg fun h => hm h.1]

theorem stopped_cons (s : State) (p q : PortId) (k : LineId) (ks : List LineId) : s.stopped p q (k :: ks) =
    (if s.stopsFor p q k then [.inputStopped k] else []) ++ s.stopped p q ks := by
  unfold stopped
  by_cases h : s.stopsFor p q k
  · rw [if_pos h, List.filter_cons_of_pos (by exact decide_eq_true h), List.map_cons]
    rfl
  · rw [if_neg h, List.filter_cons_of_neg (by rw [decide_eq_false h]; exact nofun)]
    rfl

/-- The session end of a port at one line, for a value that lines, schedule, queues and waiting changes do not hold. -/
theorem lineSessionEnd_same {α : Type} (g : State → α) (hq : ∀ (s : State) p f, g (s.modQueue p f) = g s)
    (hc : ∀ (s : State) f, g (s.modCount f) = g s) (hl : ∀ (s : State) k f, g (s.modLine k f) = g s)
    (he : ∀ (s : State) es, g (s.setEntries es) = g s) (s : State) (p : PortId) (k : LineId) :
    g (s.lineSessionEnd p k) = g s := by
  unfold lineSessionEnd
  repeat' split
  · rfl
  · exact (he _ _).trans (hl _ _ _)
  · exact (hl _ _ _).trans ((leaveInput_same _ g hq hc k).trans (he _ _))

theorem lineSessionEnd_queue (s : State) (p q : PortId) (k : LineId) : (s.lineSessionEnd p k).queue q =
    s.queueAfter q (if s.stopsFor p q k then [.inputStopped k] else []) := by
  unfold lineSessionEnd
  split
  · next ho => rw [if_neg fun h => ho h.1.1]; rfl
  · next ho =>
    split
    · next hr => rw [if_neg fun h => h.1.2 hr]; rfl
    · next hr =>
      refine (leaveInput_queue (s.orphanResolve k) k q).trans ?_
      by_cases h : (s.line k).mode = .input ∧ (s.subs q).getLsbD k.val = true
      · rw [if_pos (show s.stopsFor p q k from ⟨⟨not_not.mp ho, hr⟩, h⟩)]
        exact (if_pos h).trans (post_queue_congr _ _ _ _ rfl rfl rfl)
      · rw [if_neg fun hs : s.stopsFor p q k => h hs.2]
        exact if_neg h

theorem lineSessionEnd_sameQueue (s : State) (p q : PortId) (k : LineId) : SameQueue q (s.lineSessionEnd p k)
    (s.posts q (if s.stopsFor p q k then [.inputStopped k] else [])) :=
  sameQueue_posts
    (lineSessionEnd_same (·.isOpen q) (fun _ _ _ => rfl) (fun _ _ => rfl) (fun _ _ _ => rfl) (fun _ _ => rfl) s p k)
    (lineSessionEnd_queue s p q k) (serial_of_stable (stable_lineSessionEnd s p k))

theorem foldl_lineSessionEnd_sameQueue (ks : List LineId) (hk : ks.Nodup) (h : SameQueue q s u) :
    SameQueue q (ks.foldl (fun t k => t.lineSessionEnd p k) s) (u.posts q (s.stopped p q ks)) := by
  induction ks generalizing s u with
  | nil => exact h
  | cons k ks ih =>
    rw [List.nodup_cons] at hk
    have hrest : (s.lineSessionEnd p k).stopped p q ks = s.stopped p q ks :=
      stopped_congr (fun j hj => by rw [lineSessionEnd_line, if_neg fun e : k = j => hk.1 (e ▸ hj)])
        (lineSessionEnd_same (·.subs q) (fun _ _ _ => rfl) (fun _ _ => rfl) (fun _ _ _ => rfl) (fun _ _ => rfl) s p k)
    rw [List.foldl_cons, stopped_cons, posts_append, ← hrest]
    exact ih hk.2 ((lineSessionEnd_sameQueue s p q k).trans (h.posts _))

theorem linesSessionEnd_sameQueue (h : SameQueue q s u) :
    SameQueue q (s.linesSessionEnd p) (u.posts q (s.stopped p q allLines)) := by
  show SameQueue q (allLines.foldl (fun t k => t.lineSessionEnd p k) s) _
  exact foldl_lineSessionEnd_sameQueue allLines nodup_allLines h

/-! ### The proposal of the ending session (R130) -/

/-- The posts to port `q` of the session end of `p` at the plan unit. -/
def withdrawn (s : State) (p q : PortId) : List NoteBody :=
  match s.plan.proposal with
  | none => []
  | some x =>
    if x.proposer = p ∧ x.state = .voting ∧ x.required.getLsbD q.val = true then [.planOutcome x.number .withdrawn] else []

theorem planSessionEnd_queue (s : State) (p q : PortId) :
    (s.planSessionEnd p).queue q = s.queueAfter q (s.withdrawn p q) := by
  unfold planSessionEnd withdrawn
  cases hx : s.plan.proposal with
  | none => rfl
  | some x =>
    dsimp only
    by_cases hp : x.proposer = p
    · rw [if_pos hp]
      unfold proposerEnds
      cases hv : x.state with
      | agreed =>
        rw [if_neg fun hc => nomatch hc.2.1]
        rfl
      | voting =>
        refine (postSet_queue s x.required (.planOutcome x.number .withdrawn) q).trans ?_
        simp only [hp, true_and]
        split <;> rfl
    · rw [if_neg hp, if_neg (c := x.proposer = p ∧ _) fun hc => hp hc.1]
      split <;> rfl

theorem planSessionEnd_sameQueue (s : State) (p q : PortId) :
    SameQueue q (s.planSessionEnd p) (s.posts q (s.withdrawn p q)) :=
  sameQueue_posts (planSessionEnd_same s (·.isOpen q) (fun _ _ _ => rfl) (fun _ _ => rfl) p)
    (planSessionEnd_queue s p q) (serial_of_stable (stable_planSessionEnd s p))

/-- The posts of the session end of `p` to port `q`, in their order (log 12). -/
def endPosts (s : State) (p q : PortId) : List NoteBody := s.stopped p q allLines ++ s.withdrawn p q

/-- A session end posts to the other ports, and does nothing else to their queues. -/
theorem endSession_sameQueue (hq : q ≠ p) : SameQueue q (s.endSession p) (s.posts q (s.endPosts p q)) := by
  have hlink : SameQueue q (s.linkEnded p) s :=
    ⟨congrArg Port.isOpen (port_modPort_ne s Port.ended (Ne.symm hq)),
      queue_modQueue_ne (s.modPort p Port.ended) NoteQueue.cleared (Ne.symm hq), rfl⟩
  have hstopped : (s.linkEnded p).stopped p q allLines = s.stopped p q allLines := stopped_congr (fun _ _ => rfl) rfl
  have hlines : SameQueue q ((s.linkEnded p).linesSessionEnd p) (s.posts q (s.stopped p q allLines)) := by
    rw [← hstopped]
    exact linesSessionEnd_sameQueue hlink
  have hplan := linkEnded_lines_plan s p
  rw [endSession_eq, endPosts, posts_append]
  generalize (s.linkEnded p).linesSessionEnd p = v at hlines hplan ⊢
  have hwithdrawn : (v.journalSessionEnd p).withdrawn p q = s.withdrawn p q := by
    unfold withdrawn
    rw [show (v.journalSessionEnd p).plan = s.plan from hplan]
  have hjournal : SameQueue q (v.journalSessionEnd p) (s.posts q (s.stopped p q allLines)) :=
    ⟨hlines.isOpen, hlines.queue, hlines.serial⟩
  rw [← hwithdrawn]
  exact (planSessionEnd_sameQueue (v.journalSessionEnd p) p q).trans (hjournal.posts _)

theorem endPosts_kind {b : NoteBody} (h : b ∈ s.endPosts p q) : b.kind ≠ .syncChange := by
  rcases List.mem_append.mp h with h | h
  · obtain ⟨k, _, rfl⟩ := List.mem_map.mp h
    exact nofun
  · unfold withdrawn at h
    repeat' split at h
    · cases h
    · rw [List.mem_singleton.mp h]
      exact nofun
    · cases h

/-! ### Port reset (R151) -/

/-- The session of a port ended, if it has one. -/
def endIfOpen (p : PortId) (s : State) : State := if s.isOpen p then s.endSession p else s

theorem endIfOpen_open (h : s.isOpen p = true) : s.endIfOpen p = s.endSession p := if_pos h

theorem endIfOpen_closed (h : ¬s.isOpen p = true) : s.endIfOpen p = s := if_neg h

theorem prstAssert_eq (hr : s.resetLow = false) (hl : (s.port p).prstLow = false) :
    s.prstAssert p = (s.endIfOpen p).modPort p Port.reset := by
  simp only [prstAssert, hr, hl, Bool.false_eq_true, if_false]
  rfl

theorem endIfOpen_port (s : State) (p q : PortId) : (s.endIfOpen p).port q =
    if p = q ∧ s.isOpen p = true then (s.port p).ended else s.port q := by
  by_cases ho : s.isOpen p = true
  · rw [endIfOpen_open ho, endSession_port]
    simp only [ho, and_true]
  · rw [endIfOpen_closed ho, if_neg fun h => ho h.2]

theorem endIfOpen_same {α : Type} (g : State → α) (h : g (s.endSession p) = g s) : g (s.endIfOpen p) = g s := by
  by_cases ho : s.isOpen p = true
  · rw [endIfOpen_open ho, h]
  · rw [endIfOpen_closed ho]

end
end State

/-- Settles O8: the reset of the link forgets what a session end has left of it, and no other link changes but by the end of the
count. -/
theorem portResetClearsTheLink : Obligations.PortResetClearsTheLink := by
  intro s p hr hl
  have hexec : exec (.prstAssert p) s = .next (s.prstAssert p).settle := rfl
  rw [State.prstAssert_eq hr hl] at hexec
  have hports := State.endIfOpen_port s p
  have htime := State.endIfOpen_same State.time (State.endSession_time s p)
  have hsync := State.endIfOpen_same State.sync (State.endSession_sync s p)
  generalize s.endIfOpen p = v at hexec hports htime hsync
  have hport : (v.modPort p Port.reset).settle.port p = (s.port p).reset := by
    rw [State.settle_port_eq, State.port_modPort_same, hports]
    split <;> rfl
  refine ⟨_, hexec, hport, State.misoUndriven_ignored (by rw [hport]; rfl), htime, hsync, fun q hq => ?_⟩
  rw [State.settle_port_eq, State.port_modPort_ne _ _ (Ne.symm hq), hports, if_neg fun h => hq h.1.symm,
    funext ((v.modPort p Port.reset).sameReports_settle.response q)]
  rfl

/-! ### A session end on a settled state (R150 to R152, R167) -/

/-- What the end of the session of `p` leaves of a settled state. -/
structure SessionEnded (s : State) (p : PortId) (t : State) : Prop where
  isOpen : t.isOpen p = false
  session : (t.port p).session = (s.port p).session
  deferred : (t.port p).deferred = []
  queue : t.queue p = { s.queue p with entries := [], overflow := none, enable := 0 }
  attn : t.outputs.attn[p] = .high
  time : t.time = s.time
  sync : t.sync = s.sync
  record : t.plan.record = s.plan.record
  number : t.plan.number = s.plan.number
  counter : t.plan.counter = s.plan.counter
  others : ∀ q, q ≠ p → t.isOpen q = s.isOpen q
  posts : ∀ q, q ≠ p → t.queue q = s.queueAfter q (s.endPosts p q)

/-- The state that a session end of `p` answers: `g` marks the count of the command, and `f` is what the command does to the
link that has ended. -/
def State.ended (s : State) (p : PortId) (g f : Port → Port) : State := ((s.modPort p g).endSession p).modPort p f

namespace State

section
variable {s : State} {p : PortId} (g f : Port → Port)

theorem ended_port (s : State) (p q : PortId) : (s.ended p g f).port q =
    if p = q then f (g (s.port p)).ended else s.port q := by
  rw [ended, port_modPort, endSession_port, endSession_port, if_pos rfl, port_modPort_same]
  split
  · rfl
  · next h => rw [port_modPort_ne _ _ h]

theorem ended_queue (s : State) (p : PortId) : (s.ended p g f).queue p = (s.queue p).cleared := by
  rw [ended, queue_modPort, endSession_queue, queue_modPort]

theorem ended_time (s : State) (p : PortId) : (s.ended p g f).time = s.time := by
  rw [ended, modPort_time, endSession_time, modPort_time]

theorem ended_sync (s : State) (p : PortId) : (s.ended p g f).sync = s.sync := by
  rw [ended, modPort_sync, endSession_sync, modPort_sync]

theorem ended_serial (s : State) (p : PortId) : (s.ended p g f).count.serial = s.count.serial := by
  rw [ended, modPort_count, endSession_serial, modPort_count]

/-- Of the plan unit a session end reaches the proposal alone. -/
theorem ended_plan (s : State) (p : PortId) : ∃ x, (s.ended p g f).plan = { s.plan with proposal := x } := by
  rw [ended, modPort_plan, endSession_plan, planSessionEnd_plan, modPort_plan]
  repeat' split
  all_goals exact ⟨_, rfl⟩

theorem ended_sameQueue (hg : ∀ q, (g q).isOpen = q.isOpen) {q : PortId} (hq : q ≠ p) :
    SameQueue q (s.ended p g f) (s.posts q (s.endPosts p q)) := by
  have hmark : SameQueue q (s.modPort p g) s := ⟨isOpen_modPort_of s p g (hg _) q, rfl, rfl⟩
  have hposts : (s.modPort p g).endPosts p q = s.endPosts p q :=
    congrArg (· ++ s.withdrawn p q) (stopped_congr (fun _ _ => rfl) rfl)
  have hend := endSession_sameQueue (s := s.modPort p g) hq
  rw [hposts] at hend
  have hlink : SameQueue q (s.ended p g f) ((s.modPort p g).endSession p) := by
    unfold ended
    generalize (s.modPort p g).endSession p = v
    exact ⟨congrArg Port.isOpen (port_modPort_ne v f (Ne.symm hq)), rfl, rfl⟩
  exact hlink.trans (hend.trans (hmark.posts _))

end
end State

theorem sessionEnded_settle {s : State} {p : PortId} {g f : Port → Port} (hs : s.settled)
    (hg : ∀ q, (g q).isOpen = q.isOpen ∧ (g q).session = q.session)
    (hf : ∀ q : Port, (f q.ended).isOpen = false ∧ (f q.ended).session = q.session ∧ (f q.ended).deferred = []) :
    SessionEnded s p (s.ended p g f).settle := by
  have hport := State.ended_port g f s p
  have hqueue := State.ended_queue g f s p
  have htime := State.ended_time g f s p
  have hsync := State.ended_sync g f s p
  have hserial := State.ended_serial g f s p
  have hposts : ∀ q, q ≠ p → (s.ended p g f).queue q = s.queueAfter q (s.endPosts p q) := fun q hq =>
    (State.ended_sameQueue g f (fun q => (hg q).1) hq).queue
  obtain ⟨x, hplan⟩ := State.ended_plan g f s p
  obtain ⟨hclosed, hsession, hdeferred⟩ := hf (g (s.port p))
  generalize s.ended p g f = u at hport hqueue htime hsync hserial hposts hplan ⊢
  have hown : u.port p = f (g (s.port p)).ended := (hport p).trans (if_pos rfl)
  have hcleared : u.settle.queue p = { s.queue p with entries := [], overflow := none, enable := 0 } := by
    rw [settle_queue_eq, hqueue]
    rfl
  have hplan' : u.settle.plan = { s.plan with proposal := x } := hplan
  have hrefresh : ∀ n : Note, n.refresh u = n.refresh s := fun n => by
    simp only [Note.refresh, State.syncBody, hserial, hsync, htime]
  refine ⟨?_, ?_, ?_, hcleared, ?_, htime, hsync, ?_, ?_, ?_, fun q hq => ?_, fun q hq => ?_⟩
  · rw [State.settle_isOpen, State.isOpen, hown, hclosed]
  · rw [State.settle_port_eq, refreshPort, hown, hsession, (hg _).2]
  · rw [State.settle_port_eq, refreshPort, hown, hdeferred]
  · have hattn : u.settle.outputs.attn[p] = (u.settle.queue p).attn := mapVector_get _ _ p
    rw [hattn, hcleared]
    rfl
  · rw [hplan']
  · rw [hplan']
  · rw [hplan']
  · rw [State.settle_isOpen, State.isOpen, hport, if_neg (Ne.symm hq)]
    rfl
  · have hentries : ∀ n ∈ (s.queueAfter q (s.endPosts p q)).entries, n.refresh s = n :=
      State.posts_refreshed (fun b => State.endPosts_kind) (State.settled_note hs q)
    rw [settle_queue_eq, hposts q hq, funext hrefresh, List.map_congr_left hentries, List.map_id']

/-! ### The commands that end a session -/

section
variable {s : State} {p : PortId}

/-- The link after CLOSE: the request's own answer is the only response. -/
def closeAnswered (n : Nat) (id : Byte) (session : BitVec 16) (q : Port) : Port :=
  { q with responses := q.responses ++ [⟨kindClose, id, .ok, .closed session, n⟩] }

theorem exec_close (h : s.serving p) (id : Byte) : exec (.closeSession p id) s = .next
    (s.ended p (fun q => { q with lastEdge := some s.count.serial })
      (closeAnswered s.count.serial id (s.port p).session)).settle := by
  have hserial := State.endSession_serial (s.marked p) p
  have hexec : exec (.closeSession p id) s = .next ((s.marked p).closeSession p id).settle :=
    answer_take_open h kindClose id true (State.closeSession p id)
  rw [hexec, State.closeSession, State.respond, hserial, State.marked_session]
  rfl

theorem exec_prstAssert_open (hh : s.handles p = true) (ho : s.isOpen p = true) :
    exec (.prstAssert p) s = .next (s.ended p id Port.reset).settle := by
  unfold State.handles at hh
  rw [Bool.and_eq_true, Bool.not_eq_true', Bool.not_eq_true'] at hh
  show answer (s.prstAssert p) = _
  rw [State.prstAssert_eq hh.1 hh.2, State.endIfOpen_open ho, State.ended, State.modPort_eq_self s p id rfl]
  rfl

end

/-- The posts of a session end at the plan unit, by the proposal it finds. -/
theorem withdrawn_eq {s : State} {p q : PortId} {bs : List NoteBody}
    (h : (∃ x, s.plan.proposal = some x ∧ x.proposer = p ∧ x.state = .voting ∧ x.required.getLsbD q.val = true ∧
        bs = [.planOutcome x.number .withdrawn]) ∨
      (∀ x, s.plan.proposal = some x → x.proposer = p → x.state = .voting → x.required.getLsbD q.val = false) ∧ bs = []) :
    s.withdrawn p q = bs := by
  unfold State.withdrawn
  rcases h with ⟨x, hx, hp, hv, hr, rfl⟩ | ⟨hnone, rfl⟩
  · rw [hx]
    exact if_pos ⟨hp, hv, hr⟩
  · split
    · rfl
    · next x hx => exact if_neg fun hc => Bool.false_ne_true ((hnone x hx hc.1 hc.2.1).symm.trans hc.2.2)

/-- Settles O54: CLOSE leaves its own answer at the link, PRST_n resets the link, and both end the session. -/
theorem sessionEndClosesTheLink : Obligations.SessionEndClosesTheLink := by
  intro s p c h
  have hsession : ∃ t, exec c s = .next t ∧ SessionEnded s p t ∧
      (∀ id, c = .closeSession p id →
        (t.port p).responses = [⟨kindClose, id, .ok, .closed (s.port p).session, s.count.serial⟩] ∧
          (t.port p).overrun = (s.port p).overrun ∧ (t.port p).badFrame = (s.port p).badFrame) ∧
      (c = .prstAssert p → (t.port p).responses = [] ∧ (t.port p).overrun = false ∧ (t.port p).badFrame = false ∧
        (t.port p).chosen = none) := by
    rcases h with ⟨id, rfl, h⟩ | ⟨rfl, hh, ho, hs⟩
    · refine ⟨_, exec_close h id, sessionEnded_settle h.2.2 (fun _ => ⟨rfl, rfl⟩) fun _ => ⟨rfl, rfl, rfl⟩,
        fun i hi => ?_, nofun⟩
      cases hi
      rw [State.settle_port_eq, State.ended_port, if_pos rfl]
      refine ⟨?_, rfl, rfl⟩
      show [Response.refresh _ p _] = _
      rw [Response.refresh, Body.refresh_fixed _ p rfl, ite_self]
    · refine ⟨_, exec_prstAssert_open hh ho, sessionEnded_settle hs (fun _ => ⟨rfl, rfl⟩) fun _ => ⟨rfl, rfl, rfl⟩,
        nofun, fun _ => ?_⟩
      rw [State.settle_port_eq, State.ended_port, if_pos rfl]
      exact ⟨rfl, rfl, rfl, rfl⟩
  obtain ⟨t, hexec, ht, hclose, hreset⟩ := hsession
  refine ⟨t, hexec, ht.isOpen, ht.session, ht.deferred, hclose, hreset, ht.queue, ht.attn, ht.time, ht.sync, ht.record,
    ht.number, ht.counter, ht.others, fun q hq bs hbs => ?_⟩
  rw [ht.posts q hq, State.endPosts, withdrawn_eq hbs]
  rfl

end Sys2Proof.Machine
end

section
/-! PROOFS. What NOTE_ACK takes from its queue (R164), and what a post makes of the queue it is let through to (R156, R158 to
R162). -/

namespace Sys2Proof.Machine

/-! ### The numbers of a queue (R156, R164) -/

theorem NoteQueue.mem_numbers {q : NoteQueue} {n : BitVec 16} :
    n ∈ q.numbers ↔ (∃ x ∈ q.entries, x.number = n) ∨ ∃ o, q.overflow = some o ∧ o.number = n := by
  unfold NoteQueue.numbers
  rw [List.mem_append, List.mem_map]
  refine or_congr Iff.rfl ?_
  cases q.overflow with
  | none => simp
  | some o => simp [eq_comm]

/-- Removal keeps of the entries, and of the OVERFLOW entry, what carries another number. -/
theorem NoteQueue.remove_eq (n : BitVec 16) (q : NoteQueue) : q.remove n = { q with
    entries := q.entries.filter fun x => decide (x.number ≠ n)
    overflow := q.overflow.filter fun o => decide (o.number ≠ n) } := by
  unfold NoteQueue.remove
  cases q.overflow with
  | none => rfl
  | some o => by_cases h : o.number = n <;> simp [Option.filter, h]

/-! ### NOTE_ACK (R164) -/

section
variable {s : State} {p : PortId} (h : s.serving p) (id : Byte) {n : BitVec 16}
include h

theorem exec_noteAck_notCurrent (hn : n ∉ (s.queue p).numbers) : exec (.noteAck p id n) s =
    .next (s.answered p kindNoteAck id .notCurrent (.ack n (s.queue p).size)) :=
  answer_take_fixed h kindNoteAck id (State.noteAck p id n) (if_neg hn) rfl

theorem exec_noteAck_removes (hn : n ∈ (s.queue p).numbers) : exec (.noteAck p id n) s =
    .next (State.settle (State.answered p kindNoteAck id .ok (.ack n ((s.queue p).remove n).size)
      (s.modQueue p (NoteQueue.remove n)))) :=
  answer_take_effect h kindNoteAck id (State.noteAck p id n) (if_pos hn)

end

/-- Settles O56: the number is looked up among those the queue carries, and removal leaves what carries another. -/
theorem noteAckRemovesByCurrentNumber : Obligations.NoteAckRemovesByCurrentNumber := by
  intro s p id n h
  refine ⟨fun hentries hoverflow => exec_noteAck_notCurrent h id fun hn => ?_, fun hcarried q hq => ?_⟩
  · rcases NoteQueue.mem_numbers.mp hn with ⟨x, hx, e⟩ | ⟨o, ho, e⟩
    · exact hentries x hx e
    · exact hoverflow o ho e
  · rw [exec_noteAck_removes h id (NoteQueue.mem_numbers.mpr hcarried), hq, ← NoteQueue.remove_eq]
    rfl

/-! ### The three ways of a post that is let through (R159 to R161) -/

theorem NoteKind.coalescing_iff {k : NoteKind} : k.coalescing = true ↔ k = .journalReady ∨ k = .syncChange := by
  cases k <;> decide

/-- A post of the body folds into an entry of the queue: its kind coalesces and is queued already (R159). -/
def NoteQueue.folds (b : NoteBody) (q : NoteQueue) : Prop :=
  b.kind.coalescing = true ∧ ∃ n ∈ q.entries, n.body.kind = b.kind

namespace NoteQueue
variable {q : NoteQueue} {b : NoteBody} (stamp : Nat)

theorem folds_iff : q.folds b ↔
    (b.kind.coalescing && q.entries.any fun n => decide (n.body.kind = b.kind)) = true := by
  simp only [folds, Bool.and_eq_true, List.any_eq_true, decide_eq_true_eq]

/-- A post of a kind that does not coalesce, or of which nothing is queued, does not fold. -/
theorem not_folds (h : (b.kind ≠ .journalReady ∧ b.kind ≠ .syncChange) ∨ ∀ n ∈ q.entries, n.body.kind ≠ b.kind) :
    ¬q.folds b := by
  rintro ⟨hk, n, hn, e⟩
  rcases h with ⟨hready, hsync⟩ | hnone
  · exact (NoteKind.coalescing_iff.mp hk).elim hready hsync
  · exact hnone n hn e

theorem accept_eq_refire (h : q.folds b) : q.accept stamp b = q.refire stamp b := if_pos (folds_iff.mp h)

theorem accept_eq_create (h : ¬q.folds b) (hroom : q.entries.length < Config.noteCapacity) :
    q.accept stamp b = q.create stamp b :=
  (if_neg (mt folds_iff.mpr h)).trans (if_pos hroom)

theorem accept_eq_lose (h : ¬q.folds b) (hfull : Config.noteCapacity ≤ q.entries.length) : q.accept stamp b = q.lose :=
  (if_neg (mt folds_iff.mpr h)).trans (if_neg (Nat.not_lt.mpr hfull))

/-! Each way sets the counter on from the number it gave (R156). -/

theorem refire_eq : q.refire stamp b = bump { q with entries := q.entries.map fun n => if n.body.kind = b.kind then
    ⟨q.counter, b, if n.repeats < 255 then n.repeats + 1 else n.repeats, stamp⟩ else n } := rfl

theorem create_eq : q.create stamp b = bump { q with entries := q.entries ++
    [⟨q.counter, b, if b.kind = .journalReady ∨ b.kind = .syncChange then 1 else 0, stamp⟩] } := by
  simp only [create, NoteKind.coalescing_iff]

theorem lose_first (h : q.overflow = none) : q.lose = bump { q with overflow := some ⟨q.counter, 1, 1⟩ } := by
  unfold lose
  rw [h]

theorem lose_again {o : OverflowEntry} (h : q.overflow = some o) : q.lose = bump { q with
    overflow := some ⟨q.counter, if o.lost < 65535 then o.lost + 1 else o.lost,
      if o.repeats < 255 then o.repeats + 1 else o.repeats⟩ } := by
  unfold lose
  rw [h]
  rfl

end NoteQueue

/-- Settles O57: the gate of the post, and behind it the three ways of the queue. -/
theorem postsAreQueuedFoldedOrCounted : Obligations.PostsAreQueuedFoldedOrCounted := by
  intro s p b
  refine ⟨fun hclosed => post_refused b (Bool.and_eq_false_iff.mpr hclosed), fun ho he q q' hq hways => ?_⟩
  rw [post_accepted b ho he]
  refine State.modQueue_congr s p ?_
  rw [← hq]
  rcases hways with ⟨hk, hqueued, rfl⟩ | ⟨hk, ⟨hroom, rfl⟩ | ⟨hfull, hnone, rfl⟩ | ⟨hfull, o, hsome, rfl⟩⟩
  · rw [NoteQueue.accept_eq_refire _ ⟨NoteKind.coalescing_iff.mpr hk, hqueued⟩, NoteQueue.refire_eq]
    rfl
  · rw [NoteQueue.accept_eq_create _ (NoteQueue.not_folds hk) hroom, NoteQueue.create_eq]
    rfl
  · rw [NoteQueue.accept_eq_lose _ (NoteQueue.not_folds hk) hfull, NoteQueue.lose_first hnone]
    rfl
  · rw [NoteQueue.accept_eq_lose _ (NoteQueue.not_folds hk) hfull, NoteQueue.lose_again hsome]
    rfl

end Sys2Proof.Machine
end

section
/-! PROOFS. What one step does with the queue of commands (log 5). -/

namespace Sys2Proof.Machine

section
variable {s : State}

/-- The front command runs on the state that holds the queue's rest. -/
theorem step_of_pending_cons {c : Instr} {rest : List Instr} (h : s.pending = c :: rest) :
    step s = exec c { s with pending := rest } := by
  unfold step
  rw [h]

/-- With no command the block idles (log 5). -/
theorem step_of_pending_nil (h : s.pending = []) : step s = .next s := by
  unfold step
  rw [h]

end

/-- Settles O1: the two shapes of the queue. -/
theorem stepTakesFrontCommand : Obligations.StepTakesFrontCommand :=
  ⟨fun _ _ _ hfront => step_of_pending_cons hfront, fun _ hempty => step_of_pending_nil hempty⟩

end Sys2Proof.Machine
end
